-- ==== Sys2Proof/Word.lean ====
section
/-! DEFINITION. The word types of the spec's notation (00_scope.md R10) and their plainest arithmetic. -/

namespace Sys2Proof

/-- `u8`, `i8` (R10). -/
abbrev Byte := BitVec 8

/-- `u16`, `i16` (R10). -/
abbrev Half := BitVec 16

/-- `u32` (R10). -/
abbrev Quad := BitVec 32

/-- A stimulus word, 64 bits (30_encoding.md R80). -/
abbrev Word := BitVec 64

/-- `clamp(v, lo, hi)` (R11), used only where `lo ≤ hi`. -/
def clamp (v lo hi : Nat) : Nat :=
  if v < lo then lo else if hi < v then hi else v

/-- `sat_sub(a, b)` (R11): the natural numbers' subtraction already stops at 0. -/
def satSub (a b : Nat) : Nat := a - b

end Sys2Proof
end

