-- ==== Sys2Proof/Syntax.lean ====
section
/-! DEFINITION. The 27 stimulus words (30_encoding.md R83, spec/opcode_table.json), one constructor
each, with the operands of R83 in its order, held as the fields carry them (R80, R82). -/

namespace Sys2Proof

inductive Instr where
  /-- `clk.start` (R100) -/
  | clkStart
  /-- `clk.now` (R105) -/
  | clkNow
  /-- `clk.tick` (R101) -/
  | clkTick
  /-- `srv.init` (R122) -/
  | srvInit
  /-- `srv.new` (R123): pin -/
  | srvNew (pin : Byte)
  /-- `srv.attach` (R125): handle -/
  | srvAttach (h : Byte)
  /-- `srv.attachl` (R126): handle, min µs, max µs -/
  | srvAttachl (h : Byte) (lo hi : Half)
  /-- `srv.write` (R129): handle, value -/
  | srvWrite (h : Byte) (value : Half)
  /-- `srv.writeus` (R130): handle, µs -/
  | srvWriteus (h : Byte) (us : Half)
  /-- `srv.detach` (R132): handle -/
  | srvDetach (h : Byte)
  /-- `srv.isr` (R135) -/
  | srvIsr
  /-- `rng.new` (R151): trigger pin, temperature, echo pin -/
  | rngNew (trig : Byte) (temp echo : Half)
  /-- `rng.begin` (R155) -/
  | rngBegin
  /-- `rng.poll` (R158) -/
  | rngPoll
  /-- `rng.end` (R161) -/
  | rngEnd
  /-- `rng.measure` (R164): cycles per loop pass -/
  | rngMeasure (n : Quad)
  /-- `rng.edge` (R166) -/
  | rngEdge
  /-- `adv` (R180): cycles -/
  | adv (n : Quad)
  /-- `pin.set` (R184): pin, level -/
  | pinSet (pin : Byte) (level : Half)
  /-- `irq.off` (R187) -/
  | irqOff
  /-- `irq.on` (R188) -/
  | irqOn
  /-- `reset` (R189) -/
  | reset
  /-- `cmd.edge` (R203) -/
  | cmdEdge
  /-- `mbx.put` (R206): address, command, repeat -/
  | mbxPut (address command rep : Half)
  /-- `mbx.fetch` (R208) -/
  | mbxFetch
  /-- `disp.cmd` (R212): address, command, repeat -/
  | dispCmd (address command rep : Half)
  /-- `tur.build` (R220): yaw, pitch, roll, trigger and echo pin, temperature -/
  | turBuild (yaw pitch roll trig echo : Byte) (temp : Half)
  deriving DecidableEq, Repr

/-- Why a word is reserved (30_encoding.md R85), and why bytes are no word. All safe: the word is
refused and nothing happens. -/
inductive DecodeError where
  /-- R85 (a): the opcode is not in R83. -/
  | reservedOpcode
  /-- R85 (b): a bit of a field that the format does not use is 1. -/
  | unusedFieldNotZero
  /-- R85 (c): an operand outside the range of R82. -/
  | operandOutOfRange
  /-- Fewer than the eight bytes of one word are left of a stored script (R80). -/
  | truncatedWord
  deriving DecidableEq, Repr

end Sys2Proof
end

