-- ==== Sys2Proof/WellFormed.lean ====
section
/-! DEFINITION. The operand ranges of 30_encoding.md R82 that the fields do not already enforce. -/

namespace Sys2Proof

/-- A pin, an address or a command code carried in a 16-bit field has a high byte of 0 (R82). -/
def fitsByte (f : Half) : Bool := f.toNat < 256

/-- A level or a repeat flag is 0 or 1 (R82). -/
def isFlag (f : Half) : Bool := f.toNat < 2

/-- Every operand lies in the range of R82. The handles, widths, limits, temperatures and cycle
counts have every value of their field there. -/
def Instr.wellFormed : Instr → Bool
  | .clkStart | .clkNow | .clkTick => true
  | .srvInit | .srvNew _ | .srvAttach _ | .srvAttachl _ _ _ => true
  | .srvWrite _ _ | .srvWriteus _ _ | .srvDetach _ | .srvIsr => true
  | .rngNew _ _ echo => fitsByte echo
  | .rngBegin | .rngPoll | .rngEnd | .rngMeasure _ | .rngEdge => true
  | .adv _ => true
  | .pinSet _ level => isFlag level
  | .irqOff | .irqOn | .reset => true
  | .cmdEdge => true
  | .mbxPut address command rep => fitsByte address && fitsByte command && isFlag rep
  | .mbxFetch => true
  | .dispCmd address command rep => fitsByte address && fitsByte command && isFlag rep
  | .turBuild _ _ _ _ _ _ => true

end Sys2Proof
end

