-- ==== Sys2Proof/Decode.lean ====
section
/-! DEFINITION. The decoder (total on any word and any bytes, rejecting by name) and, after it, the
encoder, both from the encoding tables of 30_encoding.md R80 to R85. -/

namespace Sys2Proof

/-- The formats of R81. -/
inductive Format where
  | z | h | hc | hab | hac | n32 | abc | habc
  deriving DecidableEq, Repr

/-- The mask of a format (R81): a 1 at every bit it fixes. -/
def Format.mask : Format → Word
  | .z    => 0xFFFFFFFFFFFFFFFF
  | .h    => 0xFF00FFFFFFFFFFFF
  | .hc   => 0xFF00FFFFFFFF0000
  | .hab  => 0xFF0000000000FFFF
  | .hac  => 0xFF000000FFFF0000
  | .n32  => 0xFFFFFFFF00000000
  | .abc  => 0xFFFF000000000000
  | .habc => 0xFF00000000000000

/-- `op`, bits 63:56 (R80). -/
def opField (w : Word) : Byte := w.extractLsb' 56 8
/-- `h`, bits 55:48 (R80). -/
def hField (w : Word) : Byte := w.extractLsb' 48 8
/-- `a`, bits 47:32 (R80). -/
def aField (w : Word) : Half := w.extractLsb' 32 16
/-- `b`, bits 31:16 (R80). -/
def bField (w : Word) : Half := w.extractLsb' 16 16
/-- `c`, bits 15:0 (R80). -/
def cField (w : Word) : Half := w.extractLsb' 0 16
/-- `n = b ++ c`, bits 31:0 (R80). -/
def nField (w : Word) : Quad := w.extractLsb' 0 32

/-- Bits 15:8 of a 16-bit field (the pin pairs of `tur.build`, R83). -/
def hiByte (f : Half) : Byte := f.extractLsb' 8 8
/-- Bits 7:0 of a 16-bit field. -/
def loByte (f : Half) : Byte := f.extractLsb' 0 8

/-- The opcode map of R83: the format of an opcode's word and the instruction its fields give.
`none` for an opcode not in R83 (R85 (a)). -/
def opcodeRow (w : Word) : Option (Format × Instr) :=
  match (opField w).toNat with
  | 0x01 => some (.z, .clkStart)
  | 0x02 => some (.z, .clkNow)
  | 0x03 => some (.z, .clkTick)
  | 0x10 => some (.z, .srvInit)
  | 0x11 => some (.h, .srvNew (hField w))
  | 0x12 => some (.h, .srvAttach (hField w))
  | 0x13 => some (.hab, .srvAttachl (hField w) (aField w) (bField w))
  | 0x14 => some (.hc, .srvWrite (hField w) (cField w))
  | 0x15 => some (.hc, .srvWriteus (hField w) (cField w))
  | 0x16 => some (.h, .srvDetach (hField w))
  | 0x17 => some (.z, .srvIsr)
  | 0x20 => some (.hac, .rngNew (hField w) (aField w) (cField w))
  | 0x21 => some (.z, .rngBegin)
  | 0x22 => some (.z, .rngPoll)
  | 0x23 => some (.z, .rngEnd)
  | 0x24 => some (.n32, .rngMeasure (nField w))
  | 0x25 => some (.z, .rngEdge)
  | 0x30 => some (.n32, .adv (nField w))
  | 0x31 => some (.hc, .pinSet (hField w) (cField w))
  | 0x32 => some (.z, .irqOff)
  | 0x33 => some (.z, .irqOn)
  | 0x34 => some (.z, .reset)
  | 0x40 => some (.z, .cmdEdge)
  | 0x41 => some (.abc, .mbxPut (aField w) (bField w) (cField w))
  | 0x42 => some (.z, .mbxFetch)
  | 0x43 => some (.abc, .dispCmd (aField w) (bField w) (cField w))
  | 0x44 => some (.habc, .turBuild (hField w) (hiByte (aField w)) (loByte (aField w))
      (hiByte (bField w)) (loByte (bField w)) (cField w))
  | _ => none

/-- `match = op << 56` (R81), for the opcode the word itself carries. -/
def opcodeMatch (w : Word) : Word := (opField w).setWidth 64 <<< 56

/-- Decode one stimulus word, refusing the reserved ones by name (R85): first the opcode, then the
unused fields, then the operand ranges. -/
def decode (w : Word) : Except DecodeError Instr :=
  match opcodeRow w with
  | none => .error .reservedOpcode
  | some (f, i) =>
    if w &&& f.mask = opcodeMatch w then
      if i.wellFormed then .ok i else .error .operandOutOfRange
    else .error .unusedFieldNotZero

/-- The word stored in eight bytes, most significant byte first (R80). -/
def wordOfBytes (b0 b1 b2 b3 b4 b5 b6 b7 : Byte) : Word :=
  b0 ++ b1 ++ b2 ++ b3 ++ b4 ++ b5 ++ b6 ++ b7

/-- The eight bytes a word is stored as in a script file (R80). -/
def bytesOfWord (w : Word) : List Byte :=
  [w.extractLsb' 56 8, w.extractLsb' 48 8, w.extractLsb' 40 8, w.extractLsb' 32 8,
   w.extractLsb' 24 8, w.extractLsb' 16 8, w.extractLsb' 8 8, w.extractLsb' 0 8]

/-- Decode the first word of a stored script; the answer has the instruction and the bytes that
follow it (R80). -/
def decodeBytes : List Byte → Except DecodeError (Instr × List Byte)
  | b0 :: b1 :: b2 :: b3 :: b4 :: b5 :: b6 :: b7 :: rest =>
    match decode (wordOfBytes b0 b1 b2 b3 b4 b5 b6 b7) with
    | .ok i => .ok (i, rest)
    | .error e => .error e
  | _ => .error .truncatedWord

/-- The stimulus word whose low `nbits` bits are those of `w` and whose other bits are 0. -/
def tableWord (nbits w : Nat) : Word := BitVec.ofNat 64 (w % 2 ^ nbits)

/-- The instruction the decoder reads from the stored bytes of a word of opcode_table.json; `none`
where it refuses. -/
def decodeTableWord (nbits w : Nat) : Option Instr :=
  match decodeBytes (bytesOfWord (tableWord nbits w)) with
  | .ok (i, _) => some i
  | .error _ => none

/-! ### The encoder -/

/-- A word from its five fields (R80). -/
def packWord (op h : Byte) (a b c : Half) : Word := op ++ h ++ a ++ b ++ c

/-- A word of format N32 from its opcode and its 32-bit immediate (R80, R81). -/
def packN32 (op : Byte) (n : Quad) : Word :=
  packWord op 0 0 (n.extractLsb' 16 16) (n.extractLsb' 0 16)

/-- The word of an instruction, by the opcode map of R83; every unused field is 0 (R81). -/
def encode : Instr → Word
  | .clkStart => packWord 0x01 0 0 0 0
  | .clkNow => packWord 0x02 0 0 0 0
  | .clkTick => packWord 0x03 0 0 0 0
  | .srvInit => packWord 0x10 0 0 0 0
  | .srvNew pin => packWord 0x11 pin 0 0 0
  | .srvAttach h => packWord 0x12 h 0 0 0
  | .srvAttachl h lo hi => packWord 0x13 h lo hi 0
  | .srvWrite h value => packWord 0x14 h 0 0 value
  | .srvWriteus h us => packWord 0x15 h 0 0 us
  | .srvDetach h => packWord 0x16 h 0 0 0
  | .srvIsr => packWord 0x17 0 0 0 0
  | .rngNew trig temp echo => packWord 0x20 trig temp 0 echo
  | .rngBegin => packWord 0x21 0 0 0 0
  | .rngPoll => packWord 0x22 0 0 0 0
  | .rngEnd => packWord 0x23 0 0 0 0
  | .rngMeasure n => packN32 0x24 n
  | .rngEdge => packWord 0x25 0 0 0 0
  | .adv n => packN32 0x30 n
  | .pinSet pin level => packWord 0x31 pin 0 0 level
  | .irqOff => packWord 0x32 0 0 0 0
  | .irqOn => packWord 0x33 0 0 0 0
  | .reset => packWord 0x34 0 0 0 0
  | .cmdEdge => packWord 0x40 0 0 0 0
  | .mbxPut address command rep => packWord 0x41 0 address command rep
  | .mbxFetch => packWord 0x42 0 0 0 0
  | .dispCmd address command rep => packWord 0x43 0 address command rep
  | .turBuild yaw pitch roll trig echo temp =>
    packWord 0x44 yaw (pitch ++ roll) (trig ++ echo) temp

end Sys2Proof
end

