-- ==== Sys2Proof/Config.lean ====
section
/-! DEFINITION. The configuration: the open parameters of 00_scope.md R8 as plain data, and the two
opaque values of the spec (the decoder's step, R201, and the draw for T1.CMP, R271). The parameters
whose value the document fixes (R7) and the derived ones (R9) are in Machine/Params.lean. -/

namespace Sys2Proof

/-- The legal prescale values of both timers: 1, 8, 64, 256, 1024 (R8, R27, R31). -/
inductive Prescale where
  | p1 | p8 | p64 | p256 | p1024
  deriving DecidableEq, Repr

/-- The three dispatched interrupt sources, H_EDGE, H_SERVO and H_TICK (60_exceptions.md R231). -/
inductive Source where
  | edge | servo | tick
  deriving DecidableEq, Repr

/-- `PRIO`, a total order of the three sources (R235): the six orders, first source first. -/
inductive Prio where
  | edgeServoTick | edgeTickServo | servoEdgeTick | servoTickEdge | tickEdgeServo | tickServoEdge
  deriving DecidableEq, Repr

/-- `speed_of_sound` (R8), a function from whole degrees Celsius to a rational (m/s), held as plain
data: the temperatures listed in `table` have the speed listed there, every other one lies on the
line `base + slope * T`. Every function of a 16-bit temperature can be written so (log 9). -/
structure SoundLaw where
  base  : Rat
  slope : Rat
  table : List (Int × Rat)
  deriving DecidableEq, Repr

/-- The open parameters of R8, one field each, in its order. `CYC_PER_US` is derived (R9);
`POLL_CYC` is an operand (R164); `LAT_MAX` is 0 (R238; log 14). -/
structure Config where
  /-- `F_OSC_HZ` -/
  fOscHz : Nat
  /-- `TICK_HZ` -/
  tickHz : Nat
  /-- `CLK_PRESCALE` -/
  clkPrescale : Prescale
  /-- `FOLD_THRESHOLD` -/
  foldThreshold : Nat
  /-- `SRV_PRESCALE` -/
  srvPrescale : Prescale
  /-- `TRIM_US` -/
  trimUs : Nat
  /-- `GUARD_TICKS` -/
  guardTicks : Nat
  /-- `speed_of_sound` -/
  sound : SoundLaw
  /-- `DEC_SHIFT` -/
  decShift : Nat
  /-- `DECODER`: `none` where no decoder is configured, else the number that codes its `init` (log 7). -/
  decoder : Option Nat
  /-- `PITCH_MIN` -/
  pitchMin : Nat
  /-- `PITCH_MAX` -/
  pitchMax : Nat
  /-- `PITCH_STEP` -/
  pitchStep : Nat
  /-- `PITCH_INIT` -/
  pitchInit : Nat
  /-- `PITCH_SETTLE_MS` -/
  pitchSettleMs : Nat
  /-- `YAW_LEFT_US` -/
  yawLeftUs : Nat
  /-- `YAW_RIGHT_US` -/
  yawRightUs : Nat
  /-- `YAW_SPIN_MS` -/
  yawSpinMs : Nat
  /-- `ROLL_FIRE_US` -/
  rollFireUs : Nat
  /-- `ROLL_FIRE_MS` -/
  rollFireMs : Nat
  /-- `PRIO` -/
  prio : Prio
  deriving DecidableEq, Repr

/-- The three outcomes of one step of the infrared decoder (44_host.md R201). -/
inductive DecoderOutcome where
  | nothing
  | malformed
  | command (address code : Byte) (rep : Bool)
  deriving DecidableEq, Repr, Inhabited

/-- `DECODER.step` (R201): total, and nothing else is known of it. The decoder's state is coded as a
number. A free value (log 7). -/
opaque Config.decoderStep : Nat → Quad → Nat × DecoderOutcome

/-- What `T1.CMP` holds after the word `reset` (R271, U9: a draw), for the draw of the given number.
A free value (log 5). -/
opaque Config.t1CmpDraw : Nat → Half

end Sys2Proof
end

