-- ==== Sys2Proof/Machine/Params.lean ====
section
/-! DEFINITION. The parameters the document fixes (00_scope.md R7), the derived ones and the
configuration check (R9), the configuration CFG-A (R8), the unit of a tick (40_clock.md R107) and the
caller's distance (42_ranging.md R170). -/

namespace Sys2Proof

/-! ### Parameters whose value the document fixes (R7) -/

def maxServos : Nat := 12
def minPulseUs : Nat := 544
def maxPulseUs : Nat := 2400
def angleMax : Nat := 180
def defaultPulseUs : Nat := 1500
def refreshUs : Nat := 20000
def settleUs : Nat := 4
def trigUs : Nat := 10
def maxRangeM : Nat := 4
def burstFactor : Nat := 6

/-- The infrared command codes (R7, 30_encoding.md R86). -/
def irLeft : Byte := 0x08
def irRight : Byte := 0x5A
def irUp : Byte := 0x52
def irDown : Byte := 0x18
def irOk : Byte := 0x1C
def irStar : Byte := 0x16

/-- The codes of the five errors (60_exceptions.md R244). -/
def errNotInitialized : Byte := 1
def errTooManyServos : Byte := 2
def errNoTrigger : Byte := 3
def errNoEcho : Byte := 4
def errInvalidResult : Byte := 5

/-- The code of the one fault (60_exceptions.md R241). -/
def faultRangingBusy : Byte := 0x80

/-! ### Derived parameters (R9) -/

/-- Oscillator cycles per count of a timer with this prescale (R27, R31). -/
def Prescale.cycles : Prescale → Nat
  | .p1 => 1
  | .p8 => 8
  | .p64 => 64
  | .p256 => 256
  | .p1024 => 1024

/-- `CYC_PER_US` (R8). -/
def Config.cycPerUs (c : Config) : Nat := c.fOscHz / 1000000

/-- `F_OSC_HZ div (CLK_PRESCALE * TICK_HZ)`, which is `CLK_CMP + 1` (R9). -/
def Config.clkDivisor (c : Config) : Nat := c.fOscHz / (c.clkPrescale.cycles * c.tickHz)

/-- `CLK_CMP`, over the integers (R9). -/
def Config.clkCmp (c : Config) : Int := (c.clkDivisor : Int) - 1

/-- `TICK_PERIOD_CYC = CLK_PRESCALE * (CLK_CMP + 1)` (R9). -/
def Config.tickPeriodCyc (c : Config) : Nat := c.clkPrescale.cycles * c.clkDivisor

/-- `us_to_ticks(u)`: the product first, then the quotient rounded toward zero (R9, R140). -/
def Config.usToTicks (c : Config) (u : Nat) : Nat := (u * c.cycPerUs) / c.srvPrescale.cycles

/-- `REFRESH_TICKS` (R9). -/
def Config.refreshTicks (c : Config) : Nat := c.usToTicks refreshUs

/-- `DEFAULT_TICKS` (R9). -/
def Config.defaultTicks (c : Config) : Nat := c.usToTicks defaultPulseUs

/-- `speed_of_sound(T)`, m/s (R8). -/
def Config.speedOfSound (c : Config) (temp : Int) : Rat :=
  match c.sound.table.find? (fun e => e.1 == temp) with
  | some e => e.2
  | none => c.sound.base + c.sound.slope * temp

/-- `TIMEOUT_TICKS(T)`: the round trip to `MAX_RANGE_M` at the speed of sound, in ticks, rounded down
(R9, 42_ranging.md R152). `rng.new` has refused every temperature whose speed is not positive; for such
a speed the value here is 0 (log 21). -/
def Config.timeoutTicks (c : Config) (temp : Int) : Nat :=
  (((2 * maxRangeM * c.tickHz : Nat) : Rat) / c.speedOfSound temp).floor.toNat

/-- The configuration check of R9, (a) to (h), with `PITCH_STEP ≥ 1` of R8. An ill-formed configuration
has no machine (log 24). -/
def Config.wellFormed (c : Config) : Bool :=
  decide (0 ≤ c.clkCmp) && decide (c.clkCmp ≤ 255)
    && decide (c.clkPrescale.cycles * c.tickHz ≤ c.fOscHz)
    && decide (c.fOscHz % 1000000 = 0)
    && decide (c.foldThreshold ≤ 254)
    && decide (c.refreshTicks + c.guardTicks < 65536)
    && decide (c.usToTicks 65535 < 2 ^ 32)
    && decide (1 ≤ c.guardTicks)
    && decide (c.pitchMin ≤ c.pitchInit) && decide (c.pitchInit ≤ c.pitchMax)
    && decide (c.pitchMax ≤ angleMax) && decide (1 ≤ c.pitchStep)

/-- The three sources, the one that is taken first first (60_exceptions.md R235). -/
def Prio.order : Prio → List Source
  | .edgeServoTick => [.edge, .servo, .tick]
  | .edgeTickServo => [.edge, .tick, .servo]
  | .servoEdgeTick => [.servo, .edge, .tick]
  | .servoTickEdge => [.servo, .tick, .edge]
  | .tickEdgeServo => [.tick, .edge, .servo]
  | .tickServoEdge => [.tick, .servo, .edge]

/-- Configuration CFG-A (R8): the values every example of the spec uses. None is normative; the model
takes it for `State.reset` only (DESIGN CHOICE, unsafe for statements about that one state; log 1). -/
def cfgA : Config where
  fOscHz := 16000000
  tickHz := 40000
  clkPrescale := .p8
  foldThreshold := 3
  srvPrescale := .p8
  trimUs := 2
  guardTicks := 4
  sound := { base := 3313 / 10, slope := 606 / 1000, table := [] }
  decShift := 0
  decoder := none
  pitchMin := 35
  pitchMax := 175
  pitchStep := 8
  pitchInit := 100
  pitchSettleMs := 50
  yawLeftUs := 1600
  yawRightUs := 1400
  yawSpinMs := 150
  rollFireUs := 1600
  rollFireMs := 150
  prio := .edgeServoTick

/-! ### Units and distance, no operations of RTCS -/

/-- The length of `d` ticks in seconds, exact (40_clock.md R107). -/
def Config.ticksToSeconds (c : Config) (d : Nat) : Rat :=
  ((d * c.tickPeriodCyc : Nat) : Rat) / (c.fOscHz : Rat)

/-- `distance_m(d, T)`, exact (42_ranging.md R170). -/
def Config.distanceM (c : Config) (d : Nat) (temp : Int) : Rat :=
  c.speedOfSound temp * ((d * c.tickPeriodCyc : Nat) : Rat) / ((2 * c.fOscHz : Nat) : Rat)

end Sys2Proof
end

