-- ==== Sys2Proof/Machine/State.lean ====
section
/-! DEFINITION. The state of RTCS (10_state.md R20 to R42), plain data, its named updates, the reasons a
step can stop, and the state after reset. -/

namespace Sys2Proof.Machine

/-- `RES`, the result latch (R21). -/
inductive Res where
  | none
  | unit
  | u32 (v : Quad)
  | handle (h : Nat)
  | cmd (address command : Byte) (rep : Bool)
  | noCmd
  | err (code : Byte)
  deriving DecidableEq, Repr

/-- A pin's level (R39); `Low` is 0 and `High` is 1 (30_encoding.md R87). -/
inductive Level where
  | low | high
  deriving DecidableEq, Repr

/-- A pin's direction (R39). -/
inductive PinDir where
  | input | output
  deriving DecidableEq, Repr

/-- `PIN[p]` (R39). -/
structure Pin where
  dir   : PinDir
  level : Level
  deriving DecidableEq, Repr

/-- One entry of `TRACE` (R26). -/
structure TraceEntry where
  t     : Nat
  pin   : Byte
  level : Level
  deriving DecidableEq, Repr

/-- The tick timer T0 (R27); `pend` is `T0.IF`. -/
structure Timer0 where
  run      : Bool
  prescale : Prescale
  cmp      : Byte
  cnt      : Byte
  ie       : Bool
  pend     : Bool
  deriving DecidableEq, Repr

/-- The Clock cells (R28 to R30). -/
structure Clock where
  counter : Quad
  part    : Byte
  started : Bool
  deriving DecidableEq, Repr

/-- The servo timer T1 (R31); `pend` is `T1.IF`. -/
structure Timer1 where
  prescale : Prescale
  cmp      : Half
  cnt      : Half
  ie       : Bool
  pend     : Bool
  deriving DecidableEq, Repr

/-- One registered servo slot (R34). -/
structure Slot where
  pin      : Byte
  ticks    : Half
  attached : Bool
  minUs    : Half
  maxUs    : Half
  deriving DecidableEq, Repr

/-- The multiplexer cells (R32 to R35). `slots` holds the registered slots in the order of their
handles; its length is `SRV.count`, and an unregistered slot has no entry (R33, R34; log 17). `channel`
is two's complement. -/
structure Servo where
  owned   : Bool
  slots   : List Slot
  channel : Byte
  deriving DecidableEq, Repr

/-- `RNG.state` (R36): `Idle` 0, `Triggered` 1, `Measuring` 2. -/
inductive RngState where
  | idle | triggered | measuring
  deriving DecidableEq, Repr

/-- The constructed ranging driver (R37). -/
structure Driver where
  temp : Half
  trig : Byte
  echo : Byte
  deriving DecidableEq, Repr

/-- The ranging cells (R36, R37). -/
structure Ranging where
  state    : RngState
  trigTime : Option Quad
  echoTime : Option Quad
  cfg      : Option Driver
  deriving DecidableEq, Repr

/-- `MAIN.meas`, where the main context stands inside `measure()` (R37). -/
inductive Meas where
  | noMeas
  | inLoop (start : Quad)
  | exiting
  deriving DecidableEq, Repr

/-- `EDGE.MODE` (R38): `Off` 0, `Rising` 1, `Falling` 2. -/
inductive EdgeMode where
  | off | rising | falling
  deriving DecidableEq, Repr

/-- The echo edge unit (R38); `pend` is `EDGE.IF`. -/
structure EdgeUnit where
  mode : EdgeMode
  pend : Bool
  deriving DecidableEq, Repr

/-- The payload of the mailbox, a decoded command (R40). -/
structure Command where
  address : Byte
  command : Byte
  rep     : Bool
  deriving DecidableEq, Repr

/-- `TUR` once built (R40). -/
structure Turret where
  pitch : Nat
  yaw   : Nat
  pit   : Nat
  roll  : Nat
  deriving DecidableEq, Repr

/-- The state: the elements of R21 to R40, and three fields of the model's own, `cfg` (log 1), `script`
(log 2) and `draws` (log 5). -/
structure State where
  /-- The model's own: the configuration of the run (R7 to R9). No step changes it. -/
  cfg    : Config
  /-- The model's own: the stimulus words not applied yet (R5). -/
  script : List Word
  /-- The model's own: how many free values were drawn. -/
  draws  : Nat
  /-- `CPU.I` (R23) -/
  cpuI   : Bool
  /-- `FAULT` (R24) -/
  fault  : Option Byte
  /-- `RES` (R21) -/
  res    : Res
  /-- `t` (R25) -/
  t      : Nat
  /-- `TRACE` (R26), oldest entry first -/
  trace  : List TraceEntry
  /-- T0 (R27) -/
  t0     : Timer0
  /-- `CLK` (R28 to R30) -/
  clk    : Clock
  /-- T1 (R31) -/
  t1     : Timer1
  /-- `SRV` (R32 to R35) -/
  srv    : Servo
  /-- `RNG` (R36, R37) -/
  rng    : Ranging
  /-- `MAIN.meas` (R37) -/
  meas   : Meas
  /-- `EDGE` (R38) -/
  edge   : EdgeUnit
  /-- `PIN[0..255]` (R39) -/
  pins   : Vector Pin 256
  /-- `MBX` (R40) -/
  mbx    : Option Command
  /-- `DEC` (R40), coded as a number (log 7) -/
  dec    : Nat
  /-- `TUR` (R40) -/
  tur    : Option Turret
  deriving DecidableEq, Repr

/-- Why the machine stops. -/
inductive Fault where
  /-- `rng.measure` never ends (00_scope.md R13 (e), 42_ranging.md R159, U14: no next state). Raised by
  `rng.measure` alone. Safe: the hardware goes on without ever completing the word (log 10). -/
  | hang
  deriving DecidableEq, Repr

/-- Why a word is refused (00_scope.md R13 (d)): the word has no meaning in this state and the state does
not change. Every refusal is safe: nothing can be proved of a run past it (log 11). -/
inductive Refusal where
  /-- No meaning yet. -/
  | notModelled (mnemonic : String)
  /-- No stimulus word is left to apply: raised by `step` (log 3). -/
  | scriptEnded
  /-- A reserved word (R85): raised by `step` for what `decode` rejects. -/
  | reservedWord (why : DecodeError)
  /-- An operand outside the range of R82 in an instruction that came from no word: raised by the words
  with a flag or a byte in a 16-bit field (log 25). -/
  | operandOutOfRange
  /-- `FAULT ≠ None` (R242): raised by every word but `reset`. -/
  | faulted
  /-- A second `clk.start` (R100). -/
  | alreadyStarted
  /-- A second `srv.init` (R122). -/
  | alreadyInitialized
  /-- The handle is not below `SRV.count` (R121). -/
  | noSuchHandle
  /-- The slot is attached where the word needs it detached, or the other way round (R121). -/
  | wrongTypestate
  /-- `srv.attachl` with `min > max` (R126). -/
  | badLimits
  /-- `srv.attachl` with a `max` above 65535 counts (R126). -/
  | limitTooLarge
  /-- A second `rng.new` (R151), or `tur.build` beside a constructed driver (R220). -/
  | driverExists
  /-- Trigger pin = echo pin (R151, R220). -/
  | samePin
  /-- The speed of sound is not positive (R151, R220). -/
  | badTemperature
  /-- `rng.begin` with no driver (R155). -/
  | noDriver
  /-- `rng.poll` outside the loop (R158). -/
  | noLoop
  /-- `rng.end` before the loop decided to exit (R161). -/
  | notExiting
  /-- `rng.measure 0` (R164). -/
  | zeroPoll
  /-- `pin.set` on an output pin (R184). -/
  | pinIsOutput
  /-- `cmd.edge` with no decoder configured (R203). -/
  | noDecoder
  /-- `disp.cmd` with no turret built (R212). -/
  | noTurret
  /-- A second `tur.build` (R220). -/
  | alreadyBuilt
  deriving DecidableEq, Repr

/-- The outcome of a word. -/
abbrev Out := Host.Outcome State Fault Refusal

namespace State

/-- `SRV.count` (R33): the number of registered slots. -/
def srvCount (s : State) : Nat := s.srv.slots.length

/-! ### The named updates, one per field that a step may write -/

def setScript (s : State) (v : List Word) : State := { s with script := v }
def setDraws (s : State) (v : Nat) : State := { s with draws := v }
def setCpuI (s : State) (v : Bool) : State := { s with cpuI := v }
def setFault (s : State) (v : Option Byte) : State := { s with fault := v }
def setRes (s : State) (v : Res) : State := { s with res := v }
def setT (s : State) (v : Nat) : State := { s with t := v }
def setTrace (s : State) (v : List TraceEntry) : State := { s with trace := v }
def setT0 (s : State) (v : Timer0) : State := { s with t0 := v }
def setClk (s : State) (v : Clock) : State := { s with clk := v }
def setT1 (s : State) (v : Timer1) : State := { s with t1 := v }
def setSrv (s : State) (v : Servo) : State := { s with srv := v }
def setRng (s : State) (v : Ranging) : State := { s with rng := v }
def setMeas (s : State) (v : Meas) : State := { s with meas := v }
def setEdge (s : State) (v : EdgeUnit) : State := { s with edge := v }
def setPins (s : State) (v : Vector Pin 256) : State := { s with pins := v }
def setMbx (s : State) (v : Option Command) : State := { s with mbx := v }
def setDec (s : State) (v : Nat) : State := { s with dec := v }
def setTur (s : State) (v : Option Turret) : State := { s with tur := v }

/-- The state after reset under configuration `c` (R42, 70_reset_and_hazards.md R270), with `cmp` for
the unspecified `T1.CMP` (R271). `script` and `draws` are no state of the hardware and are kept (log 6). -/
def afterReset (c : Config) (cmp : Half) (script : List Word) (draws : Nat) : State where
  cfg := c
  script := script
  draws := draws
  cpuI := false
  fault := none
  res := .none
  t := 0
  trace := []
  t0 := { run := false, prescale := .p1, cmp := 0, cnt := 0, ie := false, pend := false }
  clk := { counter := 0, part := 0, started := false }
  t1 := { prescale := .p1, cmp := cmp, cnt := 0, ie := false, pend := false }
  srv := { owned := false, slots := [], channel := -1 }
  rng := { state := .idle, trigTime := none, echoTime := none, cfg := none }
  meas := .noMeas
  edge := { mode := .off, pend := false }
  pins := Vector.replicate 256 { dir := .input, level := .low }
  mbx := none
  dec := c.decoder.getD 0
  tur := none

/-- The machine of a configuration, right after reset: none for an ill-formed configuration (R9: "building
must fail"; U2), and for each value the unspecified `T1.CMP` may hold. -/
def build (c : Config) (cmp : Half) : Option State :=
  if c.wellFormed then some (afterReset c cmp [] 0) else none

/-- The machine right after reset (R42): configuration CFG-A (DESIGN CHOICE, log 1), `T1.CMP` 0 where the
spec leaves it open (DESIGN CHOICE, log 4), no script. -/
def reset : State := afterReset cfgA 0 [] 0

end State

end Sys2Proof.Machine
end

