-- ==== Sys2Proof/Machine/Flags.lean ====
section
/-! DEFINITION. The one-bit flags (10_state.md R41): which source is requesting (60_exceptions.md R231),
what the count steps (43_environment.md R182, R183) and the edge unit (R185) set, what entry clears
(R237). There are no arithmetic condition flags (R41). -/

namespace Sys2Proof.Machine

/-- A source is requesting when its pending flag is 1 and its enable holds (R231). -/
def requesting (s : State) : Source → Bool
  | .tick => s.t0.pend && s.t0.ie
  | .servo => s.t1.pend && s.t1.ie
  | .edge => s.edge.pend && s.edge.mode != .off

/-- The servo timer is active: some registered slot is attached (41_servo.md R120). -/
def active (s : State) : Bool := s.srv.slots.any (·.attached)

/-- `T0_COUNT()` (R182): at the match the counter goes to 0 and the pending flag is set. -/
def countT0 (s : State) : State :=
  if s.t0.cnt = s.t0.cmp then s.setT0 { s.t0 with cnt := 0, pend := true }
  else s.setT0 { s.t0 with cnt := s.t0.cnt + 1 }

/-- `T1_COUNT()` (R183): the flag is set by the count that makes the counter equal to the compare
value. -/
def countT1 (s : State) : State :=
  let cnt := s.t1.cnt + 1
  s.setT1 { s.t1 with cnt := cnt, pend := if cnt = s.t1.cmp then true else s.t1.pend }

/-- Whether a change of the echo pin is an edge the unit is armed for (R185). -/
def edgeMatches : EdgeMode → Level → Level → Bool
  | .rising, .low, .high => true
  | .falling, .high, .low => true
  | _, _, _ => false

/-- `EDGE_DETECT(old, new)` (R185). -/
def edgeDetect (old new : Level) (s : State) : State :=
  if edgeMatches s.edge.mode old new then s.setEdge { s.edge with pend := true } else s

/-- A write of `EDGE.MODE`, which also clears `EDGE.IF` (R38, R67). -/
def setEdgeMode (m : EdgeMode) (s : State) : State := s.setEdge { mode := m, pend := false }

/-- Clear the pending flag of a source (R237). -/
def clearPending (s : State) : Source → State
  | .tick => s.setT0 { s.t0 with pend := false }
  | .servo => s.setT1 { s.t1 with pend := false }
  | .edge => s.setEdge { s.edge with pend := false }

end Sys2Proof.Machine
end

