-- ==== Sys2Proof/Machine/Bodies.lean ====
section
/-! DEFINITION. The bodies of the three dispatched handlers (H_TICK, H_SERVO, H_EDGE), with the cell
operations they use. A body runs with `CPU.I` = 0, is atomic and takes no time (60_exceptions.md R238). -/

namespace Sys2Proof.Machine

/-! ### Pins (43_environment.md R186, 10_state.md R39) -/

def getPin (s : State) (p : Byte) : Pin := s.pins[p.toNat]'p.isLt

def setPin (p : Byte) (v : Pin) (s : State) : State := s.setPins (s.pins.set p.toNat v p.isLt)

/-- Write `PIN[p].dir`, the level unchanged. -/
def setPinDir (p : Byte) (d : PinDir) (s : State) : State := setPin p { getPin s p with dir := d } s

/-- Write `PIN[p].level`, the direction unchanged. -/
def setPinLevel (p : Byte) (l : Level) (s : State) : State := setPin p { getPin s p with level := l } s

/-- `pin_write(p, lvl)` (R186): a change of an output pin's level is written and recorded in `TRACE`
(10_state.md R26). An input pin's level is written by `pin.set` alone (R39), so on one there is no effect
(DEDUCED, unsafe; log 18). -/
def pinWrite (p : Byte) (l : Level) (s : State) : State :=
  if (getPin s p).dir = .input ∨ (getPin s p).level = l then s
  else (setPinLevel p l s).setTrace (s.trace ++ [{ t := s.t, pin := p, level := l }])

/-! ### The Clock -/

/-- What `now()` returns (40_clock.md R104): the folded count plus the sub-counter, modulo 2^32. -/
def nowValue (s : State) : Quad := s.clk.counter + s.clk.part.setWidth 32

/-- `cs { body }` inside a handler body (20_memory.md R64): save, clear, restore. `CPU.I` is 0 there, so
the `DISPATCH()` at its end takes nothing and is left out (60_exceptions.md R238; DEDUCED, safe; log 15). -/
def criticalInBody (body : State → State) (s : State) : State :=
  (body (s.setCpuI false)).setCpuI s.cpuI

/-- The fold of `clk.tick`: add the sub-counter to the counter and clear it (R101). -/
def foldClock (s : State) : State := s.setClk { s.clk with counter := nowValue s, part := 0 }

/-- The body of H_TICK, `tick()` (R101): the increment first, then the test of the incremented value. -/
def tickBody (s : State) : State :=
  let s1 := s.setClk { s.clk with part := s.clk.part + 1 }
  if s1.cfg.foldThreshold < s1.clk.part.toNat then criticalInBody foldClock s1 else s1

/-! ### The servo multiplexer (41_servo.md R135) -/

def setChannel (ch : Byte) (s : State) : State := s.setSrv { s.srv with channel := ch }

def setT1Cnt (v : Half) (s : State) : State := s.setT1 { s.t1 with cnt := v }

def setT1Cmp (v : Half) (s : State) : State := s.setT1 { s.t1 with cmp := v }

/-- The slot a non-negative channel names. None where no slot exists there (unreachable by R35; log 16). -/
def channelSlot (s : State) : Option Slot := s.srv.slots[s.srv.channel.toInt.toNat]?

/-- End the high phase of the current channel, or start a new frame when the channel is negative (the
first two steps of R135). -/
def isrEndPulse (s : State) : State :=
  if s.srv.channel.toInt < 0 then setT1Cnt 0 s
  else match channelSlot s with
    | some sl => if sl.attached then pinWrite sl.pin .low s else s
    | none => s

/-- The slot of the new channel: schedule the end of its share, raise its pin if attached (R135). -/
def isrStartPulse (sl : Slot) (s : State) : State :=
  let s1 := setT1Cmp (s.t1.cnt + sl.ticks) s
  if sl.attached then pinWrite sl.pin .high s1 else s1

/-- All slots are done: schedule the frame boundary, or the guard margin when the counter is close to it
(integer comparison, R140), and go back to channel -1 (R135). -/
def isrEndFrame (s : State) : State :=
  setChannel (-1)
    (if s.t1.cnt.toNat + s.cfg.guardTicks < s.cfg.refreshTicks
      then setT1Cmp (BitVec.ofNat 16 s.cfg.refreshTicks) s
      else setT1Cmp (s.t1.cnt + BitVec.ofNat 16 s.cfg.guardTicks) s)

/-- Serve the slot of the new channel, or end the frame when all slots are done (the last step of R135). -/
def isrServe (s : State) : State :=
  if s.srv.channel.toInt < (s.srvCount : Int) then
    match channelSlot s with
    | some sl => isrStartPulse sl s
    | none => s
  else isrEndFrame s

/-- The body of H_SERVO (R135). -/
def isrBody (s : State) : State :=
  let s1 := isrEndPulse s
  isrServe (setChannel (s1.srv.channel + 1) s1)

/-! ### The echo edge handler (42_ranging.md R166) -/

/-- The body of H_EDGE (R166): the state decides which timestamp is written. Its `now()` reads in a `cs`
that changes nothing. -/
def edgeBody (s : State) : State :=
  match s.rng.state with
  | .triggered => s.setRng { s.rng with trigTime := some (nowValue s) }
  | .measuring => s.setRng { s.rng with echoTime := some (nowValue s) }
  | .idle => s

end Sys2Proof.Machine
end

