-- ==== Sys2Proof/Machine/Operands.lean ====
section
/-! DEFINITION. How each operand is read from its field (30_encoding.md R82). A handle, a width, an
angle, a limit and a cycle count are the field as an unsigned number (`toNat`). -/

namespace Sys2Proof.Machine

/-- A temperature: the field as `i16`, whole degrees Celsius (R82). -/
def temperature (f : Half) : Int := f.toInt

/-- A pin, an address or a command code carried in a 16-bit field: its low byte, where the high byte is
0 (R82). -/
def byteOperand (f : Half) : Option Byte :=
  if fitsByte f then some (f.setWidth 8) else none

/-- A repeat flag, 0 or 1 (R82). -/
def flagOperand (f : Half) : Option Bool :=
  if isFlag f then some (f.toNat == 1) else none

/-- A level, 0 `Low` or 1 `High` (R82, R87). -/
def levelOperand (f : Half) : Option Level :=
  (flagOperand f).map fun b => if b then .high else .low

/-- The three operands of format ABC: address, command code, repeat flag (R82, R83). -/
def commandOperands (address command rep : Half) : Option Command :=
  match byteOperand address, byteOperand command, flagOperand rep with
  | some a, some c, some r => some { address := a, command := c, rep := r }
  | _, _, _ => none

end Sys2Proof.Machine
end

