-- ==== Sys2Proof/Machine/Ops.lean ====
section
/-! DEFINITION. The shared operations: interrupt entry, return and `DISPATCH()` (60_exceptions.md R235 to
R239), the fault (R242), the critical section (20_memory.md R64), `now()` (40_clock.md R104), the
directly invoked body (30_encoding.md R84), time (43_environment.md R181), and the sequencing of words
that are made of others. -/

namespace Sys2Proof.Machine

/-! ### Taking an interrupt, and returning from it -/

/-- `ENTER(s)` (R237): the pending flag of the source and `CPU.I` are cleared, nothing else changes. -/
def enter (src : Source) (s : State) : State := (clearPending s src).setCpuI false

/-- `LEAVE(s)` (R239). -/
def leave (s : State) : State := s.setCpuI true

/-- The handler body of a source (R231). -/
def runBody : Source → State → State
  | .tick => tickBody
  | .servo => isrBody
  | .edge => edgeBody

/-- One interrupt: entry, body, return (R236). -/
def takeInterrupt (src : Source) (s : State) : State := leave (runBody src (enter src s))

/-- The requesting source that stands first in `PRIO` (R235). -/
def nextSource (s : State) : Option Source := s.cfg.prio.order.find? (requesting s)

/-- At most `k` turns of the loop of `DISPATCH()` (R236). -/
def dispatchTurns : Nat → State → State
  | 0, s => s
  | k + 1, s =>
    if s.cpuI && s.fault.isNone then
      match nextSource s with
      | some src => dispatchTurns k (takeInterrupt src s)
      | none => s
    else s

/-- `DISPATCH()` (R236). Three turns are enough: a body sets no pending flag, so each of the three sources
is taken at most once per call (R236). -/
def dispatch (s : State) : State := dispatchTurns 3 s

/-! ### The fault -/

/-- `raise Fault(code)` (R242). The way out is the word `reset` (R189). -/
def raiseFault (code : Byte) (s : State) : State := (s.setFault (some code)).setCpuI false

/-- Every word but `reset` is refused in the faulted state (R242). -/
def unlessFaulted (s : State) (op : State → Out) : Out :=
  match s.fault with
  | none => op s
  | some _ => .refused .faulted

/-! ### Critical sections and the Clock's reader, in the main context -/

/-- `cs { body }` in the main context (R64), with the value the body read: save, clear, body, restore,
`DISPATCH()`. -/
def critical {α : Type} (body : State → α × State) (s : State) : α × State :=
  let r := body (s.setCpuI false)
  (r.1, dispatch (r.2.setCpuI s.cpuI))

/-- `now()` called from the main context (R104). -/
def now (s : State) : Quad × State := critical (fun s => (nowValue s, s)) s

/-- A handler body invoked by a word of its own (R84, R240): `CPU.I` saved, cleared for the body and
restored after it, no pending flag read or written. -/
def directBody (body : State → State) (s : State) : State :=
  (body (s.setCpuI false)).setCpuI s.cpuI

/-! ### Time -/

/-- T0 counts at the cycles whose number is a multiple of its prescale, while it runs (R181). -/
def clockT0 (s : State) : State :=
  if s.t0.run && s.t % s.t0.prescale.cycles == 0 then countT0 s else s

/-- T1 counts at the cycles whose number is a multiple of its prescale, while it is enabled (R181). -/
def clockT1 (s : State) : State :=
  if s.t1.ie && s.t % s.t1.prescale.cycles == 0 then countT1 s else s

/-- `CYCLE()` (R181): time advances by one, T0 counts, T1 counts, interrupts are taken. -/
def cycle (s : State) : State := dispatch (clockT1 (clockT0 (s.setT (s.t + 1))))

/-- `ADV(n)` (R181): `n` cycles. -/
def advance : Nat → State → State
  | 0, s => s
  | n + 1, s => advance n (cycle s)

/-- `DELAY_MS(k)` (44_host.md R211). -/
def delayMs (k : Nat) (s : State) : State := advance (k * 1000 * s.cfg.cycPerUs) s

/-! ### Sequencing -/

/-- Go on with `k` after an operation that answered a next state; a stop of the operation is the word's
stop. -/
def andThen (o : Out) (k : State → Out) : Out :=
  match o with
  | .next s => k s
  | .fault f => .fault f
  | .refused r => .refused r

/-- The stimulus word to apply next, and the state without it (log 2). -/
def fetch (s : State) : Option (Word × State) :=
  match s.script with
  | [] => none
  | w :: rest => some (w, s.setScript rest)

end Sys2Proof.Machine
end

