-- ==== Sys2Proof/Machine/Clock.lean ====
section
/-! DEFINITION. The Clock family (40_clock.md): clk.start, clk.now, clk.tick. -/

namespace Sys2Proof.Machine

/-- Configure T0 in compare-match mode and start it (R100). -/
def startClock (s : State) : State :=
  ((s.setT0 { run := true, prescale := s.cfg.clkPrescale, cmp := BitVec.ofInt 8 s.cfg.clkCmp,
              cnt := 0, ie := true, pend := false }).setClk { s.clk with started := true }).setRes .unit

/-- `clk.start` (R100). -/
def execClkStart (s : State) : Out :=
  unlessFaulted s fun s =>
    if s.clk.started then .refused .alreadyStarted else .next (startClock s)

/-- `clk.now` (R105). -/
def execClkNow (s : State) : Out :=
  unlessFaulted s fun s =>
    let r := now s
    .next (r.2.setRes (.u32 r.1))

/-- `clk.tick` (R101), the body of H_TICK run directly (R84). -/
def execClkTick (s : State) : Out :=
  unlessFaulted s fun s => .next (directBody tickBody s)

end Sys2Proof.Machine
end

