-- ==== Sys2Proof/Machine/Environment.lean ====
section
/-! DEFINITION. Time, pins and interrupt masking (43_environment.md): adv, pin.set, irq.off, irq.on,
reset. -/

namespace Sys2Proof.Machine

/-- `adv` (R180). -/
def execAdv (n : Quad) (s : State) : Out :=
  unlessFaulted s fun s => .next (advance n.toNat s)

/-- The pin is the echo pin of the constructed driver (R184). -/
def isEchoPin (p : Byte) (s : State) : Bool :=
  match s.rng.cfg with
  | some d => d.echo == p
  | none => false

/-- The environment drives an input pin to a level (R184). -/
def drivePin (p : Byte) (l : Level) (s : State) : State :=
  let old := (getPin s p).level
  let s1 := setPinLevel p l s
  if isEchoPin p s1 then edgeDetect old l s1 else s1

/-- `pin.set` (R184). -/
def execPinSet (p : Byte) (level : Half) (s : State) : Out :=
  unlessFaulted s fun s =>
    match levelOperand level with
    | none => .refused .operandOutOfRange
    | some l => if (getPin s p).dir = .output then .refused .pinIsOutput else .next (drivePin p l s)

/-- `irq.off` (R187). -/
def execIrqOff (s : State) : Out :=
  unlessFaulted s fun s => .next (s.setCpuI false)

/-- `irq.on` (R188); the `DISPATCH()` after it is the step's, as after every word (R236). -/
def execIrqOn (s : State) : Out :=
  unlessFaulted s fun s => .next (s.setCpuI true)

/-- `reset` (R189): every element to its reset value, `T1.CMP` to a value that is not known (R271; free
value, log 5). It is accepted in every state. The configuration and the script are no state of the
hardware (R20) and stay (log 6). -/
def execReset (s : State) : Out :=
  .next (State.afterReset s.cfg (Config.t1CmpDraw s.draws) s.script (s.draws + 1))

end Sys2Proof.Machine
end

