-- ==== Sys2Proof/Machine/Ranging.lean ====
section
/-! DEFINITION. The Ranging family (42_ranging.md): rng.new, rng.begin, rng.poll, rng.end, rng.measure,
rng.edge. -/

namespace Sys2Proof.Machine

/-! ### The driver -/

/-- The refusals of `rng.new`, in its order (R151); `tur.build` makes the same ones (R220). -/
def driverRefusal (trig : Byte) (temp : Half) (echo : Byte) (s : State) : Option Refusal :=
  if s.rng.cfg.isSome then some .driverExists
  else if trig = echo then some .samePin
  else if s.cfg.speedOfSound (temperature temp) ≤ 0 then some .badTemperature
  else none

/-- The effect of `rng.new` (R151). -/
def constructDriver (trig : Byte) (temp : Half) (echo : Byte) (s : State) : State :=
  let s1 := s.setRng { s.rng with cfg := some { temp := temp, trig := trig, echo := echo } }
  (setPinDir echo .input (setPinDir trig .output s1)).setRes .unit

/-- `rng.new` with its checks (R151). -/
def newDriver (trig : Byte) (temp : Half) (echo : Byte) (s : State) : Out :=
  match driverRefusal trig temp echo s with
  | some r => .refused r
  | none => .next (constructDriver trig temp echo s)

/-! ### The parts of measure() -/

/-- Low for the settle time, high for the trigger time, low again (R155). -/
def triggerPulse (d : Driver) (s : State) : State :=
  let s1 := advance (settleUs * s.cfg.cycPerUs) (pinWrite d.trig .low s)
  let s2 := advance (trigUs * s1.cfg.cycPerUs) (pinWrite d.trig .high s1)
  pinWrite d.trig .low s2

/-- Clear both timestamps in one critical section (R155). -/
def clearTimestamps (s : State) : State :=
  (critical (fun s => ((), s.setRng { s.rng with trigTime := none, echoTime := none })) s).2

/-- Go to Triggered in one critical section (R155). -/
def goTriggered (s : State) : State :=
  (critical (fun s => ((), s.setRng { s.rng with state := .triggered })) s).2

/-- Enter the busy-wait loop at the tick `now()` gives (R155). -/
def enterLoop (s : State) : State :=
  let r := now s
  r.2.setMeas (.inLoop r.1)

/-- What `rng.begin` does once the state is known to be Idle (R155). -/
def beginMeasure (d : Driver) (s : State) : State :=
  enterLoop (setEdgeMode .rising (goTriggered (triggerPulse d (clearTimestamps s))))

/-- `rng.begin` (R155): no driver is a refusal, a state that is not Idle the fault `RangingBusy` (R241). -/
def rngBegin (s : State) : Out :=
  match s.rng.cfg with
  | none => .refused .noDriver
  | some d =>
    let r := critical (fun s => (s.rng.state, s)) s
    if r.1 = .idle then .next (beginMeasure d r.2) else .next (raiseFault faultRangingBusy r.2)

/-- The timeout of the constructed driver, in ticks (R152). With no driver there is no loop (R37); the
value is then 0 (log 21). -/
def driverTimeout (s : State) : Nat :=
  match s.rng.cfg with
  | some d => s.cfg.timeoutTicks (temperature d.temp)
  | none => 0

/-- The critical section of `rng.poll` (R158): read the three cells and, once the trigger edge is captured,
re-arm for the falling edge and go to Measuring. -/
def rearmIfDue (s : State) : (Option Quad × Option Quad) × State :=
  let read := (s.rng.trigTime, s.rng.echoTime)
  if s.rng.state = .triggered ∧ s.rng.trigTime.isSome then
    (read, (setEdgeMode .falling s).setRng { s.rng with state := .measuring })
  else (read, s)

/-- One pass of the busy-wait loop that began at tick `start` (R158). The timeout test comes first and
its difference wraps. -/
def pollPass (start : Quad) (s : State) : State :=
  let n := now s
  if driverTimeout n.2 ≤ (n.1 - start).toNat then n.2.setMeas .exiting
  else
    let r := critical rearmIfDue n.2
    if r.1.1.isSome ∧ r.1.2.isSome then r.2.setMeas .exiting else r.2

/-- `rng.poll` (R158). -/
def rngPoll (s : State) : Out :=
  match s.meas with
  | .inLoop start => .next (pollPass start s)
  | .noMeas => .refused .noLoop
  | .exiting => .refused .noLoop

/-- The result of a measurement from its two timestamps (R161). -/
def rangingResult : Option Quad → Option Quad → Res
  | none, _ => .err errNoTrigger
  | some _, none => .err errNoEcho
  | some tt, some et => if et.toNat ≤ tt.toNat then .err errInvalidResult else .u32 (et - tt)

/-- The effect of `rng.end` (R161): disarm, go to Idle, read the timestamps, give the result. -/
def endMeasure (s : State) : State :=
  let s1 := setEdgeMode .off s
  let r := critical (fun s => ((s.rng.trigTime, s.rng.echoTime), s.setRng { s.rng with state := .idle })) s1
  (r.2.setMeas .noMeas).setRes (rangingResult r.1.1 r.1.2)

/-- `rng.end` (R161). -/
def rngEnd (s : State) : Out :=
  match s.meas with
  | .exiting => .next (endMeasure s)
  | .noMeas => .refused .notExiting
  | .inLoop _ => .refused .notExiting

/-! ### measure() as one word -/

/-- `now()` can advance no further within `rng.measure`: interrupts are off, or T0 does not count, or its
interrupt is disabled (R159). -/
def clockStalled (s : State) : Bool := !(s.cpuI && s.t0.run && s.t0.ie)

/-- More passes than the loop has distinct situations (the clock cells, 40 bits; T0's counter and flag,
9 bits; the prescaler phase, at most 1024): a loop that has not exited after so many never exits (log 10). -/
def measureFuel : Nat := 2 ^ 60

/-- The loop of `rng.measure` (R164), `DISPATCH()` after each constituent. A loop that can never exit is
the hang (R159). -/
def measureLoop : Nat → Nat → State → Out
  | 0, _, _ => .fault .hang
  | k + 1, n, s =>
    match rngPoll s with
    | .next p =>
      let p := dispatch p
      if p.meas = .exiting then rngEnd p
      else if clockStalled p then .fault .hang
      else measureLoop k n (advance n p)
    | .fault f => .fault f
    | .refused r => .refused r

/-- `rng.measure` (R164): the fault of its `rng.begin` is its own. -/
def measure (n : Nat) (s : State) : Out :=
  if n = 0 then .refused .zeroPoll
  else andThen (rngBegin s) fun b =>
    if b.fault.isSome then .next b else measureLoop measureFuel n (dispatch b)

/-! ### The words -/

/-- `rng.new` (R151). -/
def execRngNew (trig : Byte) (temp echo : Half) (s : State) : Out :=
  unlessFaulted s fun s =>
    match byteOperand echo with
    | some e => newDriver trig temp e s
    | none => .refused .operandOutOfRange

/-- `rng.begin` (R155). -/
def execRngBegin (s : State) : Out := unlessFaulted s rngBegin

/-- `rng.poll` (R158). -/
def execRngPoll (s : State) : Out := unlessFaulted s rngPoll

/-- `rng.end` (R161). -/
def execRngEnd (s : State) : Out := unlessFaulted s rngEnd

/-- `rng.measure` (R164). -/
def execRngMeasure (n : Quad) (s : State) : Out := unlessFaulted s (measure n.toNat)

/-- `rng.edge` (R166), the body of H_EDGE run directly (R84). -/
def execRngEdge (s : State) : Out :=
  unlessFaulted s fun s => .next (directBody edgeBody s)

end Sys2Proof.Machine
end

