-- ==== Sys2Proof/Machine/Servo.lean ====
section
/-! DEFINITION. The Servo multiplexer family (41_servo.md): srv.init, srv.new, srv.attach, srv.attachl,
srv.write, srv.writeus, srv.detach, srv.isr. -/

namespace Sys2Proof.Machine

/-! ### Slots and handles -/

def setSlot (h : Nat) (sl : Slot) (s : State) : State :=
  s.setSrv { s.srv with slots := s.srv.slots.set h sl }

/-- The checks every handle-taking word makes first (R121): the handle exists, and its slot is attached
(`need` true) or detached (`need` false). -/
def withHandle (need : Bool) (h : Nat) (s : State) (op : Slot → Out) : Out :=
  match s.srv.slots[h]? with
  | none => .refused .noSuchHandle
  | some sl => if sl.attached = need then op sl else .refused .wrongTypestate

/-- `width_ticks(S, u)` (R128): clamp, subtract the trim, convert. -/
def widthTicks (c : Config) (sl : Slot) (u : Nat) : Nat :=
  c.usToTicks (satSub (clamp u sl.minUs.toNat sl.maxUs.toNat) c.trimUs)

/-- The map of the logical range 0..180 onto the slot's limits (R129). -/
def angleToUs (sl : Slot) (value : Nat) : Nat :=
  sl.minUs.toNat + (clamp value 0 angleMax * (sl.maxUs.toNat - sl.minUs.toNat)) / angleMax

/-! ### Registration -/

/-- The slot `srv.new` writes (R123). -/
def newSlot (c : Config) (pin : Byte) : Slot where
  pin := pin
  ticks := BitVec.ofNat 16 c.defaultTicks
  attached := false
  minUs := BitVec.ofNat 16 minPulseUs
  maxUs := BitVec.ofNat 16 maxPulseUs

/-- `new(pin)` (R123): the two errors are values in `RES`. -/
def registerServo (pin : Byte) (s : State) : State :=
  if s.srv.owned = false then s.setRes (.err errNotInitialized)
  else if s.srvCount = maxServos then s.setRes (.err errTooManyServos)
  else (s.setSrv { s.srv with slots := s.srv.slots ++ [newSlot s.cfg pin] }).setRes (.handle s.srvCount)

/-! ### Attach and detach -/

/-- What an arming attach does to T1 (R127). -/
def armT1 (s : State) : State :=
  s.setT1 { s.t1 with prescale := s.cfg.srvPrescale, cnt := 0, pend := false, ie := true }

/-- `ATTACH(h, lo, hi)` (R127) on the slot `sl` of handle `h`; whether it arms the timer is decided before
the slot is attached. -/
def attachSlot (h : Nat) (sl : Slot) (lo hi : Half) (s : State) : State :=
  let s1 := setSlot h { sl with minUs := lo, maxUs := hi, attached := true } s
  let s2 := setPinDir sl.pin .output s1
  let s3 := if active s then s2 else armT1 s2
  s3.setRes .unit

/-- `detach()` (R132) on the slot `sl` of handle `h`. -/
def detachSlot (h : Nat) (sl : Slot) (s : State) : State :=
  let s1 := setSlot h { sl with attached := false } s
  let s2 := if active s1 then s1 else s1.setT1 { s1.t1 with ie := false }
  s2.setRes .unit

/-! ### Writes -/

/-- `cs { S.ticks <- v }` and `RES <- Unit` (R129, R130). -/
def storeTicks (h : Nat) (sl : Slot) (v : Nat) (s : State) : State :=
  (critical (fun s => ((), setSlot h { sl with ticks := BitVec.ofNat 16 v } s)) s).2.setRes .unit

/-- `write(value)` (R129). -/
def writeAngle (h value : Nat) (s : State) : Out :=
  withHandle true h s fun sl => .next (storeTicks h sl (widthTicks s.cfg sl (angleToUs sl value)) s)

/-- `write_us(pulse_width)` (R130). -/
def writeWidth (h us : Nat) (s : State) : Out :=
  withHandle true h s fun sl => .next (storeTicks h sl (widthTicks s.cfg sl us) s)

/-! ### The words -/

/-- `srv.init` (R122). -/
def execSrvInit (s : State) : Out :=
  unlessFaulted s fun s =>
    if s.srv.owned then .refused .alreadyInitialized
    else .next ((s.setSrv { s.srv with owned := true }).setRes .unit)

/-- `srv.new` (R123). -/
def execSrvNew (pin : Byte) (s : State) : Out :=
  unlessFaulted s fun s => .next (registerServo pin s)

/-- `srv.attach` (R125). -/
def execSrvAttach (h : Byte) (s : State) : Out :=
  unlessFaulted s fun s => withHandle false h.toNat s fun sl =>
    .next (attachSlot h.toNat sl (BitVec.ofNat 16 minPulseUs) (BitVec.ofNat 16 maxPulseUs) s)

/-- `srv.attachl` (R126). -/
def execSrvAttachl (h : Byte) (lo hi : Half) (s : State) : Out :=
  unlessFaulted s fun s => withHandle false h.toNat s fun sl =>
    if hi.toNat < lo.toNat then .refused .badLimits
    else if 65535 < s.cfg.usToTicks hi.toNat then .refused .limitTooLarge
    else .next (attachSlot h.toNat sl lo hi s)

/-- `srv.write` (R129). -/
def execSrvWrite (h : Byte) (value : Half) (s : State) : Out :=
  unlessFaulted s (writeAngle h.toNat value.toNat)

/-- `srv.writeus` (R130). -/
def execSrvWriteus (h : Byte) (us : Half) (s : State) : Out :=
  unlessFaulted s (writeWidth h.toNat us.toNat)

/-- `srv.detach` (R132). -/
def execSrvDetach (h : Byte) (s : State) : Out :=
  unlessFaulted s fun s => withHandle true h.toNat s fun sl => .next (detachSlot h.toNat sl s)

/-- `srv.isr` (R135), the body of H_SERVO run directly (R84). -/
def execSrvIsr (s : State) : Out :=
  unlessFaulted s fun s => .next (directBody isrBody s)

end Sys2Proof.Machine
end

