-- ==== Sys2Proof/Machine/HostSide.lean ====
section
/-! DEFINITION. The host side (44_host.md): cmd.edge, mbx.put, mbx.fetch, disp.cmd, tur.build. -/

namespace Sys2Proof.Machine

/-! ### The decoder and the mailbox -/

/-- What a decoder outcome leaves in the mailbox (R203): a command overwrites it, the rest has no
effect. -/
def storeOutcome (o : DecoderOutcome) (s : State) : State :=
  match o with
  | .command a c r => s.setMbx (some { address := a, command := c, rep := r })
  | .nothing => s
  | .malformed => s

/-- The body of H_CMD (R203): timestamp, feed the decoder, keep a decoded command. -/
def cmdEdgeBody (s : State) : State :=
  let ts := nowValue s >>> s.cfg.decShift
  let r := Config.decoderStep s.dec ts
  storeOutcome r.2 (s.setDec r.1)

/-- `cmd.edge` (R203), the body of H_CMD run directly (R84). -/
def execCmdEdge (s : State) : Out :=
  unlessFaulted s fun s =>
    match s.cfg.decoder with
    | none => .refused .noDecoder
    | some _ => .next (directBody cmdEdgeBody s)

/-- `mbx.put` (R206), a body of H_CMD run directly (R84). -/
def execMbxPut (address command rep : Half) (s : State) : Out :=
  unlessFaulted s fun s =>
    match commandOperands address command rep with
    | none => .refused .operandOutOfRange
    | some c => .next (directBody (fun s => s.setMbx (some c)) s)

/-- The value `fetch()` returns for what the mailbox held (R208). -/
def fetchResult : Option Command → Res
  | some c => .cmd c.address c.command c.rep
  | none => .noCmd

/-- `mbx.fetch` (R208): take and clear in one critical section. -/
def execMbxFetch (s : State) : Out :=
  unlessFaulted s fun s =>
    let r := critical (fun s => (s.mbx, s.setMbx none)) s
    .next (r.2.setRes (fetchResult r.1))

/-! ### The dispatcher -/

/-- Move the pitch to `new`, write it to the pitch servo, wait the settle delay (R213, R214). -/
def movePitch (new : Nat) (tu : Turret) (s : State) : Out :=
  andThen (writeAngle tu.pit new (s.setTur (some { tu with pitch := new }))) fun s1 =>
    .next (delayMs s1.cfg.pitchSettleMs s1)

/-- UP (R213): at `PITCH_MIN` nothing is written. -/
def dispatchUp (tu : Turret) (s : State) : Out :=
  if s.cfg.pitchMin < tu.pitch then
    movePitch (max s.cfg.pitchMin (satSub tu.pitch s.cfg.pitchStep)) tu s
  else .next s

/-- DOWN (R214): at `PITCH_MAX` nothing is written. -/
def dispatchDown (tu : Turret) (s : State) : Out :=
  if tu.pitch < s.cfg.pitchMax then
    movePitch (min s.cfg.pitchMax (tu.pitch + s.cfg.pitchStep)) tu s
  else .next s

/-- Write a width to a servo, hold it for `ms` milliseconds, write the centre width (R215 to R217). -/
def pulseServo (h us ms : Nat) (s : State) : Out :=
  andThen (writeWidth h us s) fun s1 => writeWidth h defaultPulseUs (delayMs ms s1)

/-- Dispatch keyed on the command code (R212 to R219). -/
def dispatchCommand (code : Byte) (rep : Bool) (tu : Turret) (s : State) : Out :=
  if code = irUp then dispatchUp tu s
  else if code = irDown then dispatchDown tu s
  else if code = irLeft then pulseServo tu.yaw s.cfg.yawLeftUs s.cfg.yawSpinMs s
  else if code = irRight then pulseServo tu.yaw s.cfg.yawRightUs s.cfg.yawSpinMs s
  else if code = irOk then
    (if rep then .next s else pulseServo tu.roll s.cfg.rollFireUs s.cfg.rollFireMs s)
  else if code = irStar then
    (if rep then .next s else pulseServo tu.roll s.cfg.rollFireUs (burstFactor * s.cfg.rollFireMs) s)
  else .next s

/-- `disp.cmd` (R212): the address is not looked at. -/
def execDispCmd (address command rep : Half) (s : State) : Out :=
  unlessFaulted s fun s =>
    match commandOperands address command rep with
    | none => .refused .operandOutOfRange
    | some c =>
      match s.tur with
      | none => .refused .noTurret
      | some tu => andThen (dispatchCommand c.command c.rep tu s) fun s1 => .next (s1.setRes .unit)

/-! ### The builder -/

/-- Register one servo and attach it with the default limits: the state, and the handle, or no handle
where the registration failed and the build stops (R220). -/
def buildServo (pin : Byte) (s : State) : State × Option Nat :=
  let s1 := registerServo pin s
  match s1.res with
  | .handle h =>
    match s1.srv.slots[h]? with
    | some sl => (attachSlot h sl (BitVec.ofNat 16 minPulseUs) (BitVec.ofNat 16 maxPulseUs) s1, some h)
    | none => (s1, none)
  | _ => (s1, none)

/-- Register and attach yaw, pitch and roll in this order, construct the driver, fill `TUR` (R220). A
failed registration stops the build; what the earlier steps did stays. -/
def buildTurret (yaw pitch roll trig echo : Byte) (temp : Half) (s : State) : State :=
  match buildServo yaw s with
  | (s1, none) => s1
  | (s1, some hy) =>
    match buildServo pitch s1 with
    | (s2, none) => s2
    | (s2, some hp) =>
      match buildServo roll s2 with
      | (s3, none) => s3
      | (s3, some hr) =>
        ((constructDriver trig temp echo s3).setTur
          (some { pitch := s.cfg.pitchInit, yaw := hy, pit := hp, roll := hr })).setRes .unit

/-- `tur.build` (R220): the refusals of `rng.new` are tested first. -/
def execTurBuild (yaw pitch roll trig echo : Byte) (temp : Half) (s : State) : Out :=
  unlessFaulted s fun s =>
    if s.tur.isSome then .refused .alreadyBuilt
    else match driverRefusal trig temp echo s with
      | some r => .refused r
      | none => .next (buildTurret yaw pitch roll trig echo temp s)

end Sys2Proof.Machine
end

