-- ==== Sys2Proof/Machine/Dispatch.lean ====
section
/-! DEFINITION. The dispatch of a stimulus word to its meaning, one arm per row of the opcode map
(30_encoding.md R83). -/

namespace Sys2Proof.Machine

def exec (i : Instr) (s : State) : Host.Outcome State Fault Refusal :=
  match i with
  | .clkStart => Sys2Proof.Machine.execClkStart s
  | .clkNow => Sys2Proof.Machine.execClkNow s
  | .clkTick => Sys2Proof.Machine.execClkTick s
  | .srvInit => Sys2Proof.Machine.execSrvInit s
  | .srvNew pin => Sys2Proof.Machine.execSrvNew pin s
  | .srvAttach h => Sys2Proof.Machine.execSrvAttach h s
  | .srvAttachl h lo hi => Sys2Proof.Machine.execSrvAttachl h lo hi s
  | .srvWrite h value => Sys2Proof.Machine.execSrvWrite h value s
  | .srvWriteus h us => Sys2Proof.Machine.execSrvWriteus h us s
  | .srvDetach h => Sys2Proof.Machine.execSrvDetach h s
  | .srvIsr => Sys2Proof.Machine.execSrvIsr s
  | .rngNew trig temp echo => Sys2Proof.Machine.execRngNew trig temp echo s
  | .rngBegin => Sys2Proof.Machine.execRngBegin s
  | .rngPoll => Sys2Proof.Machine.execRngPoll s
  | .rngEnd => Sys2Proof.Machine.execRngEnd s
  | .rngMeasure n => Sys2Proof.Machine.execRngMeasure n s
  | .rngEdge => Sys2Proof.Machine.execRngEdge s
  | .adv n => Sys2Proof.Machine.execAdv n s
  | .pinSet pin level => Sys2Proof.Machine.execPinSet pin level s
  | .irqOff => Sys2Proof.Machine.execIrqOff s
  | .irqOn => Sys2Proof.Machine.execIrqOn s
  | .reset => Sys2Proof.Machine.execReset s
  | .cmdEdge => Sys2Proof.Machine.execCmdEdge s
  | .mbxPut address command rep => Sys2Proof.Machine.execMbxPut address command rep s
  | .mbxFetch => Sys2Proof.Machine.execMbxFetch s
  | .dispCmd address command rep => Sys2Proof.Machine.execDispCmd address command rep s
  | .turBuild yaw pitch roll trig echo temp => Sys2Proof.Machine.execTurBuild yaw pitch roll trig echo temp s

end Sys2Proof.Machine
end

