-- ==== Sys2Proof/Machine/Step.lean ====
section
/-! DEFINITION. One step: take the next stimulus word of the script, decode it, run its meaning, and run
`DISPATCH()` after it (60_exceptions.md R236). -/

namespace Sys2Proof.Machine

/-- Apply one stimulus word to a state (00_scope.md R5, R13): the refusals of encoding come first (R243). -/
def applyWord (w : Word) (s : State) : Out :=
  match decode w with
  | .error e => .refused (.reservedWord e)
  | .ok i => andThen (exec i s) fun s1 => .next (dispatch s1)

/-- One step of the machine with its script (log 2): where no word is left there is no step (log 3). -/
def step (s : State) : Host.Outcome State Fault Refusal :=
  match fetch s with
  | none => .refused .scriptEnded
  | some (w, s1) => applyWord w s1

/-- The state with a stimulus word placed where `step` takes its next one: first in the script (log 2). -/
def State.withFetchWord (s : State) (nbits w : Nat) : State :=
  s.setScript (tableWord nbits w :: s.script)

end Sys2Proof.Machine
end

