-- ==== Sys2Proof/Safety.lean ====
section
/-! DEFINITION. What counts as a safe run: the invariants the rules state for the state between steps,
the quiet states, and the marked run of a script (00_scope.md R13 (d)). -/

namespace Sys2Proof.Machine

/-! ### Between steps -/

/-- No interrupt could be taken now: interrupts are off, the machine is faulted, or no source is
requesting. `DISPATCH()` after every word leaves the machine so (60_exceptions.md R236). -/
abbrev Quiet (s : State) : Prop :=
  s.cpuI = true → s.fault = none → ∀ src : Source, requesting s src = false

/-- The Clock between steps: the sub-counter is at most the threshold (10_state.md R29), and T0 is as
`clk.start` left it once started and off before (R100), its counter never above its compare value (R182). -/
structure ClockInv (s : State) : Prop where
  part_le : s.clk.part.toNat ≤ s.cfg.foldThreshold
  run_iff : s.t0.run = s.clk.started
  ie_iff : s.t0.ie = s.clk.started
  prescale : s.clk.started = true → s.t0.prescale = s.cfg.clkPrescale
  cmp : s.clk.started = true → (s.t0.cmp.toNat : Int) = s.cfg.clkCmp
  cnt_le : s.t0.cnt.toNat ≤ s.t0.cmp.toNat

/-- The multiplexer between steps: at most twelve slots (R33), none before the hand-over (R123 (a)), the
channel -1 or a registered slot (R35), T1 enabled exactly while some slot is attached (R127, R132) and then
with its configured prescale, and every slot's limits ordered and within 16 bits of counts (R126, R128). -/
structure ServoInv (s : State) : Prop where
  count_le : s.srvCount ≤ maxServos
  owned : s.srv.owned = false → s.srv.slots = []
  channel : s.srv.channel = -1 ∨ s.srv.channel.toNat < s.srvCount
  ie_iff : s.t1.ie = active s
  prescale : s.t1.ie = true → s.t1.prescale = s.cfg.srvPrescale
  limits : ∀ sl ∈ s.srv.slots, sl.minUs.toNat ≤ sl.maxUs.toNat ∧ s.cfg.usToTicks sl.maxUs.toNat ≤ 65535

/-- The edge mode that belongs to a ranging state (R155, R158, R161). -/
def modeOf : RngState → EdgeMode
  | .idle => .off
  | .triggered => .rising
  | .measuring => .falling

/-- The ranging unit between steps: `MAIN.meas` is NoMeas exactly in Idle (R37), the edge unit is armed as
the state says, a measurement has a driver, Measuring has its trigger timestamp (R158), an echo timestamp
never stands without one (R158 (b)), and the driver passed the checks of `rng.new` and its trigger pin is an
output (R151). -/
structure RangingInv (s : State) : Prop where
  meas_iff : s.meas = .noMeas ↔ s.rng.state = .idle
  mode : s.edge.mode = modeOf s.rng.state
  driver : s.rng.state ≠ .idle → s.rng.cfg.isSome = true
  trig : s.rng.state = .measuring → s.rng.trigTime.isSome = true
  echo : s.rng.echoTime.isSome = true → s.rng.trigTime.isSome = true
  checked : ∀ d, s.rng.cfg = some d → d.trig ≠ d.echo ∧ 0 < s.cfg.speedOfSound (temperature d.temp)
  trigger : ∀ d, s.rng.cfg = some d → (getPin s d.trig).dir = .output

/-- The turret between steps: the pitch within its bounds (R213), the three handles registered and
distinct, the driver constructed (R220). -/
structure TurretInv (s : State) : Prop where
  pitch : ∀ tu, s.tur = some tu → s.cfg.pitchMin ≤ tu.pitch ∧ tu.pitch ≤ s.cfg.pitchMax
  handles : ∀ tu, s.tur = some tu → tu.yaw < tu.pit ∧ tu.pit < tu.roll ∧ tu.roll < s.srvCount
  driver : s.tur.isSome = true → s.rng.cfg.isSome = true

/-- The faulted state (R242): the one code (R241), and interrupts off. -/
structure FaultInv (s : State) : Prop where
  code : s.fault = none ∨ s.fault = some faultRangingBusy
  masked : s.fault.isSome = true → s.cpuI = false

/-- `TRACE` is in the order of time, and no entry is later than now (10_state.md R26). -/
structure TraceInv (s : State) : Prop where
  ordered : s.trace.Pairwise (fun e f => e.t ≤ f.t)
  past : ∀ e ∈ s.trace, e.t ≤ s.t

/-! ### What goes on underneath -/

/-- What the timers and the three dispatched handlers never touch, whatever runs of them lies between `s`
and `s'`: they write only `t`, the counters, compare value and pending flags of the timers, the counter and
sub-counter of the Clock, the channel, the two timestamps, `EDGE.IF`, pin levels and `TRACE` (R101, R135,
R166, R181 to R183, R237). -/
structure BackgroundFrame (s s' : State) : Prop where
  cfg : s'.cfg = s.cfg
  script : s'.script = s.script
  draws : s'.draws = s.draws
  cpuI : s'.cpuI = s.cpuI
  fault : s'.fault = s.fault
  res : s'.res = s.res
  t0run : s'.t0.run = s.t0.run
  t0prescale : s'.t0.prescale = s.t0.prescale
  t0cmp : s'.t0.cmp = s.t0.cmp
  t0ie : s'.t0.ie = s.t0.ie
  started : s'.clk.started = s.clk.started
  t1prescale : s'.t1.prescale = s.t1.prescale
  t1ie : s'.t1.ie = s.t1.ie
  owned : s'.srv.owned = s.srv.owned
  slots : s'.srv.slots = s.srv.slots
  rngState : s'.rng.state = s.rng.state
  driver : s'.rng.cfg = s.rng.cfg
  meas : s'.meas = s.meas
  mode : s'.edge.mode = s.edge.mode
  dir : ∀ p, (getPin s' p).dir = (getPin s p).dir
  mbx : s'.mbx = s.mbx
  dec : s'.dec = s.dec
  tur : s'.tur = s.tur

/-! ### Sequences, for statements about them -/

/-- Run the meanings of a list of words one after another, with no `DISPATCH()` between them; the first stop
is the sequence's. -/
def execList : List Instr → State → Out
  | [], s => .next s
  | i :: is, s => andThen (exec i s) (execList is)

/-- T0 matches in the next cycle (R181, R182). -/
def t0MatchesNext (s : State) : Bool :=
  s.t0.run && (s.t + 1) % s.t0.prescale.cycles == 0 && s.t0.cnt == s.t0.cmp

/-- The number of matches of T0 in the next `n` cycles. -/
def t0Matches : Nat → State → Nat
  | 0, _ => 0
  | n + 1, s => (if t0MatchesNext s then 1 else 0) + t0Matches n (cycle s)

/-! ### The marked run of a script (R13) -/

/-- What became of one word of a script. -/
inductive Mark where
  | ran
  | faulted
  | refused (r : Refusal)
  | hung
  deriving DecidableEq, Repr

/-- Apply a script word by word, with a mark for each word: a refused word leaves the state as it was and
the run is marked (R13 (d)); a word that enters the faulted state is marked (R13 (c)); a hang ends the run
(R13 (e)). -/
def runScript : List Word → State → State × List Mark
  | [], s => (s, [])
  | w :: ws, s =>
    match applyWord w s with
    | .next s1 =>
      let r := runScript ws s1
      (r.1, (if s.fault.isNone && s1.fault.isSome then .faulted else .ran) :: r.2)
    | .refused why =>
      let r := runScript ws s
      (r.1, .refused why :: r.2)
    | .fault _ => (s, [.hung])

/-- A script is safe from a state: every word runs, none raises the fault (R242: a run that reaches the
faulted state has gone wrong). -/
def safeScript (ws : List Word) (s : State) : Bool :=
  (runScript ws s).2.all (· == .ran)

end Sys2Proof.Machine
end

