-- ==== Sys2Proof/Certificates/Slice0/Obligations.lean ====
section
/-! DEFINITION. The statements for the provers. Each says in its docstring which rule of spec/ it rests on;
next states are written out as updates of the old one, so that everything not written is unchanged. -/

open Sys2Proof Sys2Proof.Machine

/-! ## Encoding (30_encoding.md) -/

/-- R80 to R83: decoding the word of a well-formed instruction gives it back, for every instruction and
every operand its fields admit. -/
def Obligations.DecodeEncodeRoundTrip : Prop :=
  ∀ i : Instr, i.wellFormed = true → decode (encode i) = .ok i

/-- R80 to R85: a word that decodes has exactly one meaning, is well-formed, and is the word of its
instruction. -/
def Obligations.DecodedWordIsItsEncoding : Prop :=
  ∀ (w : Word) (i : Instr), decode w = .ok i → i.wellFormed = true ∧ encode i = w

/-- R85: a word whose opcode is not one of the 27 is refused as such, and so is, in every state, every word
that is the encoding of no well-formed instruction. -/
def Obligations.ReservedWordsAreRefused : Prop :=
  (∀ w : Word, (w.extractLsb' 56 8).toNat ∉
      [0x01, 0x02, 0x03, 0x10, 0x11, 0x12, 0x13, 0x14, 0x15, 0x16, 0x17, 0x20, 0x21, 0x22, 0x23, 0x24,
       0x25, 0x30, 0x31, 0x32, 0x33, 0x34, 0x40, 0x41, 0x42, 0x43, 0x44] →
    decode w = .error .reservedOpcode) ∧
  ∀ (w : Word) (s : State), (∀ i : Instr, i.wellFormed = true → encode i ≠ w) →
    ∃ why, applyWord w s = .refused (.reservedWord why)

/-- R88, 95_test_vectors.md V-ENC-1 and V-ENC-2: words written out from the field layout decode to the
instructions they stand for, and reserved words to none. A sanity statement. -/
def Obligations.WrittenWordsDecode : Prop :=
  decode 0x15000000000005DC = .ok (.srvWriteus 0 1500) ∧
  decode 0x300000000009C400 = .ok (.adv 640000) ∧
  decode 0x2007FFEC00000008 = .ok (.rngNew 7 (-20) 8) ∧
  decode 0x44090A0B07080014 = .ok (.turBuild 9 10 11 7 8 20) ∧
  decode 0x4300000000160000 = .ok (.dispCmd 0 0x16 0) ∧
  decode 0x0000000000000000 = .error .reservedOpcode ∧
  decode 0x1109000000000001 = .error .unusedFieldNotZero ∧
  decode 0x3108000000000002 = .error .operandOutOfRange

/-! ## The step and its interrupts (60_exceptions.md) -/

/-- R5, R236 (the script in State is the model's choice, log 2): a step takes the first word left, and is
the meaning of the instruction it decodes to, with `DISPATCH()` after it; a stop of the meaning is the
step's. -/
def Obligations.StepRunsDecodedInstruction : Prop :=
  ∀ (s : State) (w : Word) (rest : List Word) (i : Instr), s.script = w :: rest → decode w = .ok i →
    (∀ t, exec i { s with script := rest } = .next t → step s = .next (dispatch t)) ∧
    (∀ f, exec i { s with script := rest } = .fault f → step s = .fault f) ∧
    (∀ r, exec i { s with script := rest } = .refused r → step s = .refused r)

/-- R236: `DISPATCH()` ends only when no interrupt can be taken, so no step leaves one. -/
def Obligations.StepLeavesNothingToTake : Prop :=
  ∀ s t : State, step s = .next t → t.cpuI = true → t.fault = none →
    ∀ src : Source, requesting t src = false

/-- R235, R236: of several requesting sources the one that stands first in `PRIO` is taken, and
`DISPATCH()` goes on from there. For all six orders. -/
def Obligations.PriorityDecidesWhichIsTaken : Prop :=
  ∀ (s : State) (src : Source), s.cpuI = true → s.fault = none → requesting s src = true →
    (∀ other, requesting s other = true → other ≠ src → [src, other].Sublist s.cfg.prio.order) →
    dispatch s = dispatch (takeInterrupt src s)

/-- R237, R239: entry clears the pending flag of its source and `CPU.I`, return sets `CPU.I`, nothing else
changes. R231, R236: one interrupt is entry, the handler body of its source, which is what the word of that
body (`clk.tick`, `srv.isr`, `rng.edge`) does, and return. -/
def Obligations.EntryAndReturnTouchFlagsOnly : Prop :=
  (∀ s : State,
    enter .tick s = { s with t0 := { s.t0 with pend := false }, cpuI := false } ∧
    enter .servo s = { s with t1 := { s.t1 with pend := false }, cpuI := false } ∧
    enter .edge s = { s with edge := { s.edge with pend := false }, cpuI := false } ∧
    leave s = { s with cpuI := true }) ∧
  ∀ s : State, s.fault = none →
    (∃ u, exec .clkTick (enter .tick s) = .next u ∧ takeInterrupt .tick s = leave u) ∧
    (∃ u, exec .srvIsr (enter .servo s) = .next u ∧ takeInterrupt .servo s = leave u) ∧
    (∃ u, exec .rngEdge (enter .edge s) = .next u ∧ takeInterrupt .edge s = leave u)

/-- R187, R181 to R183: while `CPU.I` is 0, `n` cycles let `n` pass on `t`, count the timers and set pending
flags, and do nothing else. A timer that runs (T0: `RUN`; T1: `IE`) counts once at every multiple of its
prescale in `(t, t+n]`, a stopped one not at all. T1.CNT goes up by one a count, modulo 2^16, and T1.IF is set
when a count makes it equal to T1.CMP. T0.CNT goes up to T0.CMP and from there to 0, which sets T0.IF; one
that stands above T0.CMP first wraps to 0 at 256, which sets nothing. A flag once set stays set. -/
def Obligations.MaskedTimeOnlyCounts : Prop :=
  ∀ (n : Nat) (s : State), s.cpuI = false →
    let counts (runs : Bool) (p : Prescale) : Nat := if runs then (s.t + n) / p.cycles - s.t / p.cycles else 0
    let k0 := counts s.t0.run s.t0.prescale
    let k1 := counts s.t1.ie s.t1.prescale
    ∃ (c0 : Byte) (p0 p1 : Bool),
      advance n s = { s with
        t := s.t + n
        t0 := { s.t0 with cnt := c0, pend := p0 }
        t1 := { s.t1 with cnt := s.t1.cnt + BitVec.ofNat 16 k1, pend := p1 } } ∧
      (p1 = true ↔ s.t1.pend = true ∨ ∃ k, 1 ≤ k ∧ k ≤ k1 ∧ s.t1.cnt + BitVec.ofNat 16 k = s.t1.cmp) ∧
      (s.t0.cnt.toNat ≤ s.t0.cmp.toNat →
        c0.toNat = (s.t0.cnt.toNat + k0) % (s.t0.cmp.toNat + 1) ∧
        (p0 = true ↔ s.t0.pend = true ∨ s.t0.cmp.toNat < s.t0.cnt.toNat + k0)) ∧
      (s.t0.cmp.toNat < s.t0.cnt.toNat →
        (s.t0.cnt.toNat + k0 < 256 → c0.toNat = s.t0.cnt.toNat + k0 ∧ p0 = s.t0.pend) ∧
        (256 ≤ s.t0.cnt.toNat + k0 →
          c0.toNat = (s.t0.cnt.toNat + k0 - 256) % (s.t0.cmp.toNat + 1) ∧
          (p0 = true ↔ s.t0.pend = true ∨ s.t0.cmp.toNat < s.t0.cnt.toNat + k0 - 256)))

/-! ## The Clock (40_clock.md) -/

/-- R100: `clk.start` configures and starts T0 with the configured prescale and the compare value
`CLK_CMP`, which fits its 8 bits, and nothing else; a second one is refused. -/
def Obligations.ClkStartConfiguresT0 : Prop :=
  ∀ s : State, s.cfg.wellFormed = true → s.fault = none →
    (s.clk.started = false → ∃ cmp : Byte, (cmp.toNat : Int) = s.cfg.clkCmp ∧
      exec .clkStart s = .next { s with
        t0 := { run := true, prescale := s.cfg.clkPrescale, cmp := cmp, cnt := 0, ie := true, pend := false }
        clk := { s.clk with started := true }
        res := .unit }) ∧
    (s.clk.started = true → exec .clkStart s = .refused .alreadyStarted)

/-- R101: `clk.tick` increments the sub-counter and, when the incremented value exceeds the threshold, adds
it to the counter and clears it; nothing else changes. -/
def Obligations.ClkTickIncrementsAndFolds : Prop :=
  ∀ s : State, s.fault = none →
    (s.cfg.foldThreshold < (s.clk.part + 1).toNat →
      exec .clkTick s = .next { s with clk := { s.clk with
        counter := s.clk.counter + (s.clk.part + 1).setWidth 32, part := 0 } }) ∧
    ((s.clk.part + 1).toNat ≤ s.cfg.foldThreshold →
      exec .clkTick s = .next { s with clk := { s.clk with part := s.clk.part + 1 } })

/-- R102 (which the spec marks as derived from R101), under the invariant of R29: `clk.tick` completes, advances the count that `now()` returns by
exactly one modulo 2^32, across a fold too, and keeps the invariant. -/
def Obligations.ClkTickAdvancesNowByOne : Prop :=
  ∀ s : State, s.cfg.foldThreshold ≤ 254 → s.clk.part.toNat ≤ s.cfg.foldThreshold → s.fault = none →
    ∃ t, exec .clkTick s = .next t ∧
      t.clk.counter + t.clk.part.setWidth 32 = s.clk.counter + s.clk.part.setWidth 32 + 1 ∧
      t.clk.part.toNat ≤ t.cfg.foldThreshold

/-- R101 (b): counted from a cleared sub-counter, the first `FOLD_THRESHOLD` calls leave the counter alone
and the next one folds. -/
def Obligations.FoldOnEveryThresholdPlusOneTicks : Prop :=
  ∀ s : State, s.cfg.foldThreshold ≤ 254 → s.clk.part = 0 → s.fault = none →
    (∀ k, k ≤ s.cfg.foldThreshold →
      execList (List.replicate k .clkTick) s =
        .next { s with clk := { s.clk with part := BitVec.ofNat 8 k } }) ∧
    execList (List.replicate (s.cfg.foldThreshold + 1) .clkTick) s =
      .next { s with clk := { s.clk with
        counter := s.clk.counter + BitVec.ofNat 32 (s.cfg.foldThreshold + 1), part := 0 } }

/-- R105: the word of `clk.now`; and in a state where no interrupt is waiting to be taken it puts counter
plus sub-counter, modulo 2^32, into `RES` and changes nothing else, before `clk.start` too. -/
def Obligations.ClkNowReturnsCount : Prop :=
  encode .clkNow = 0x0200000000000000 ∧
  ∀ s : State, Quiet s → s.fault = none →
    exec .clkNow s = .next { s with res := .u32 (s.clk.counter + s.clk.part.setWidth 32) }

/-- R100, R107, R181, R182: with the prescaler phase aligned, the first tick interrupt becomes pending
exactly `TICK_PERIOD_CYC` cycles after `clk.start`, not earlier, and the counter is then at 0 again. -/
def Obligations.FirstTickAfterOnePeriod : Prop :=
  ∀ s : State, s.cfg.wellFormed = true → s.fault = none → s.cpuI = false → s.clk.started = false →
    s.t % s.cfg.clkPrescale.cycles = 0 →
    ∃ s1, exec .clkStart s = .next s1 ∧
      (∀ k, k < s.cfg.tickPeriodCyc → (advance k s1).t0.pend = false) ∧
      (advance s.cfg.tickPeriodCyc s1).t0.pend = true ∧ (advance s.cfg.tickPeriodCyc s1).t0.cnt = 0

/-- R108 and R281 (which the spec marks as derived from R101, R182 and R236), with T0's interrupt enabled and
under the invariant of R29. Over time with interrupts on, from a state where none is waiting, every match of T0
gives one tick: `now()` advances by their number, modulo 2^32. Over a stretch with interrupts off that holds
one or more matches, it advances by exactly 1, at the end of the stretch when interrupts are enabled again;
over one with no match and no pending tick it does not advance. The number of matches in `(t, t+n]` is what the
counter and the prescale give (R181, R182). -/
def Obligations.LostTicksMergeIntoOne : Prop :=
  (∀ (n : Nat) (s : State), s.fault = none → s.t0.ie = true →
    s.cfg.foldThreshold ≤ 254 → s.clk.part.toNat ≤ s.cfg.foldThreshold →
    let count (u : State) : Quad := u.clk.counter + u.clk.part.setWidth 32
    (s.cpuI = true → Quiet s → count (advance n s) = count s + BitVec.ofNat 32 (t0Matches n s)) ∧
    (s.cpuI = false → 1 ≤ t0Matches n s → (advance n s).clk = s.clk ∧
      ∃ t, exec .irqOn (advance n s) = .next t ∧ count (dispatch t) = count s + 1) ∧
    (s.cpuI = false → t0Matches n s = 0 → s.t0.pend = false →
      ∃ t, exec .irqOn (advance n s) = .next t ∧ (dispatch t).clk = s.clk)) ∧
  ∀ (n : Nat) (s : State), s.t0.cnt.toNat ≤ s.t0.cmp.toNat →
    let p := s.t0.prescale.cycles
    t0Matches n s = (s.t0.cnt.toNat + if s.t0.run then (s.t + n) / p - s.t / p else 0) / (s.t0.cmp.toNat + 1)

/-! ## The servo multiplexer (41_servo.md) -/

/-- R122: the word of `srv.init`; the first one hands T1 over and touches nothing else, a second one is
refused. -/
def Obligations.SrvInitHandsTimerOver : Prop :=
  encode .srvInit = 0x1000000000000000 ∧
  ∀ s : State, s.fault = none →
    (s.srv.owned = false → exec .srvInit s = .next { s with srv := { s.srv with owned := true }, res := .unit }) ∧
    (s.srv.owned = true → exec .srvInit s = .refused .alreadyInitialized)

/-- R123: `srv.new` returns `NotInitialized` before the hand-over and `TooManyServos` with twelve slots,
with no other effect; else it appends a detached slot with the default width and limits and returns its
handle. With a well-formed configuration the default width fits its 16 bits. -/
def Obligations.SrvNewRegistersSlot : Prop :=
  ∀ (s : State) (pin : Byte), s.fault = none →
    (s.srv.owned = false → exec (.srvNew pin) s = .next { s with res := .err 1 }) ∧
    (s.srv.owned = true → s.srv.slots.length = 12 → exec (.srvNew pin) s = .next { s with res := .err 2 }) ∧
    (s.srv.owned = true → s.srv.slots.length < 12 → s.cfg.wellFormed = true →
      ∃ ticks : Half, ticks.toNat = s.cfg.usToTicks 1500 ∧
        exec (.srvNew pin) s = .next { s with
          srv := { s.srv with slots := s.srv.slots ++
            [{ pin := pin, ticks := ticks, attached := false, minUs := 544, maxUs := 2400 }] }
          res := .handle s.srv.slots.length })

/-- R124 (which the spec marks as derived from R123): once the timer is handed over, the first twelve registrations return the handles 0 to 11 in
order, and every later one returns `TooManyServos` and changes no slot. -/
def Obligations.TwelveServosAndNoMore : Prop :=
  ∀ s : State, s.fault = none → s.srv.owned = true → s.srv.slots = [] →
    (∀ pins : List Byte, pins.length ≤ 12 → ∃ t, execList (pins.map .srvNew) s = .next t ∧
      t.srv.slots.map (·.pin) = pins ∧ (pins ≠ [] → t.res = .handle (pins.length - 1))) ∧
    (∀ pins more : List Byte, pins.length = 12 → more ≠ [] → ∃ t, execList (pins.map .srvNew) s = .next t ∧
      execList (more.map .srvNew) t = .next { t with res := .err 2 })

/-- R125, R127: `srv.attach` on a detached slot sets the default limits, attaches it and makes its pin an
output with its level kept; when no slot was attached before it arms T1 (prescale, counter, pending flag,
enable), else T1 is untouched; `T1.CMP` and the channel are never written. -/
def Obligations.SrvAttachArmsOnFirst : Prop :=
  ∀ (s : State) (h : Byte) (sl : Slot), s.fault = none → s.srv.slots[h.toNat]? = some sl →
    sl.attached = false →
    exec (.srvAttach h) s = .next { s with
      srv := { s.srv with
        slots := s.srv.slots.set h.toNat { sl with attached := true, minUs := 544, maxUs := 2400 } }
      pins := s.pins.set sl.pin.toNat
        { dir := .output, level := (s.pins[sl.pin.toNat]'sl.pin.isLt).level } sl.pin.isLt
      t1 := (if s.srv.slots.any (·.attached) then s.t1
        else { prescale := s.cfg.srvPrescale, cmp := s.t1.cmp, cnt := 0, ie := true, pend := false })
      res := .unit }

/-- R126: `srv.attachl` refuses limits out of order, then a maximum above 65535 counts, and else attaches
as `srv.attach` does but with the limits given; the slot's width is kept. -/
def Obligations.SrvAttachlSetsLimits : Prop :=
  ∀ (s : State) (h : Byte) (lo hi : Half) (sl : Slot), s.fault = none →
    s.srv.slots[h.toNat]? = some sl → sl.attached = false →
    (hi.toNat < lo.toNat → exec (.srvAttachl h lo hi) s = .refused .badLimits) ∧
    (lo.toNat ≤ hi.toNat → 65535 < s.cfg.usToTicks hi.toNat →
      exec (.srvAttachl h lo hi) s = .refused .limitTooLarge) ∧
    (lo.toNat ≤ hi.toNat → s.cfg.usToTicks hi.toNat ≤ 65535 →
      exec (.srvAttachl h lo hi) s = .next { s with
        srv := { s.srv with
          slots := s.srv.slots.set h.toNat { sl with attached := true, minUs := lo, maxUs := hi } }
        pins := s.pins.set sl.pin.toNat
          { dir := .output, level := (s.pins[sl.pin.toNat]'sl.pin.isLt).level } sl.pin.isLt
        t1 := (if s.srv.slots.any (·.attached) then s.t1
          else { prescale := s.cfg.srvPrescale, cmp := s.t1.cmp, cnt := 0, ie := true, pend := false })
        res := .unit })

/-- R121: the checks every handle-taking word makes first, in this order: an unknown handle, then a slot of
the wrong kind. A refusal answers no next state. -/
def Obligations.HandleWordsCheckHandle : Prop :=
  ∀ (s : State) (h : Byte) (x y : Half), s.fault = none →
    (s.srv.slots.length ≤ h.toNat →
      exec (.srvAttach h) s = .refused .noSuchHandle ∧ exec (.srvAttachl h x y) s = .refused .noSuchHandle ∧
      exec (.srvWrite h x) s = .refused .noSuchHandle ∧ exec (.srvWriteus h x) s = .refused .noSuchHandle ∧
      exec (.srvDetach h) s = .refused .noSuchHandle) ∧
    (∀ sl, s.srv.slots[h.toNat]? = some sl → sl.attached = true →
      exec (.srvAttach h) s = .refused .wrongTypestate ∧
      exec (.srvAttachl h x y) s = .refused .wrongTypestate) ∧
    (∀ sl, s.srv.slots[h.toNat]? = some sl → sl.attached = false →
      exec (.srvWrite h x) s = .refused .wrongTypestate ∧ exec (.srvWriteus h x) s = .refused .wrongTypestate ∧
      exec (.srvDetach h) s = .refused .wrongTypestate)

/-- R131, which the spec marks as derived from R128 to R130: for a slot with ordered limits the stored width (a) never falls when the request grows, (b) lies
between the widths of the two limits, (c) never falls when the angle grows, and (d) a write stores into its
own slot alone, a value that depends on that slot and the request alone. With CFG-A and the default limits
the two ends are 1084 and 4796 counts. -/
def Obligations.WidthLaws : Prop :=
  (∀ (c : Config) (sl : Slot) (u v : Nat), sl.minUs.toNat ≤ sl.maxUs.toNat → u ≤ v →
    widthTicks c sl u ≤ widthTicks c sl v ∧
    widthTicks c sl (angleToUs sl u) ≤ widthTicks c sl (angleToUs sl v)) ∧
  (∀ (c : Config) (sl : Slot) (u : Nat), sl.minUs.toNat ≤ sl.maxUs.toNat →
    c.usToTicks (sl.minUs.toNat - c.trimUs) ≤ widthTicks c sl u ∧
    widthTicks c sl u ≤ c.usToTicks (sl.maxUs.toNat - c.trimUs) ∧
    widthTicks c sl sl.minUs.toNat = c.usToTicks (sl.minUs.toNat - c.trimUs) ∧
    widthTicks c sl sl.maxUs.toNat = c.usToTicks (sl.maxUs.toNat - c.trimUs)) ∧
  (cfgA.usToTicks (544 - cfgA.trimUs) = 1084 ∧ cfgA.usToTicks (2400 - cfgA.trimUs) = 4796) ∧
  (∀ (s t : State) (h : Byte) (x : Half) (i : Instr), (i = .srvWrite h x ∨ i = .srvWriteus h x) →
    exec i s = .next t →
    (∀ j, j ≠ h.toNat → t.srv.slots[j]? = s.srv.slots[j]?) ∧
    ∀ s' t' : State, s'.cfg = s.cfg → s'.srv.slots[h.toNat]? = s.srv.slots[h.toNat]? →
      exec i s' = .next t' → t'.srv.slots[h.toNat]? = t.srv.slots[h.toNat]?)

/-- R129, R128: in a state where no interrupt is waiting, `srv.write` on an attached slot with ordered
limits stores the width of the linear map of the value (read as 180 above 180) onto the limits, less the
trim, in counts rounded down; nothing but the slot's width and `RES` changes. -/
def Obligations.SrvWriteStoresAngle : Prop :=
  ∀ (s : State) (h : Byte) (v : Half) (sl : Slot), Quiet s → s.fault = none →
    s.srv.slots[h.toNat]? = some sl → sl.attached = true → sl.minUs.toNat ≤ sl.maxUs.toNat →
    exec (.srvWrite h v) s = .next { s with
      srv := { s.srv with slots := s.srv.slots.set h.toNat { sl with ticks := BitVec.ofNat 16 (s.cfg.usToTicks
        (sl.minUs.toNat + (min v.toNat 180 * (sl.maxUs.toNat - sl.minUs.toNat)) / 180 - s.cfg.trimUs)) } }
      res := .unit }

/-- R130, R128: the word of `srv.writeus`; after the checks of R121 it stores the width asked for, brought
into the slot's (ordered) limits, less the trim, in counts rounded down, in a state where no interrupt is
waiting; nothing but the slot's width and `RES` changes. -/
def Obligations.SrvWriteusStoresWidth : Prop :=
  (∀ (h : Byte) (us : Half), encode (.srvWriteus h us) = 0x15#8 ++ h ++ 0#32 ++ us) ∧
  ∀ (s : State) (h : Byte) (us : Half), s.fault = none →
    (s.srv.slots[h.toNat]? = none → exec (.srvWriteus h us) s = .refused .noSuchHandle) ∧
    ∀ sl : Slot, s.srv.slots[h.toNat]? = some sl →
      (sl.attached = false → exec (.srvWriteus h us) s = .refused .wrongTypestate) ∧
      (Quiet s → sl.attached = true → sl.minUs.toNat ≤ sl.maxUs.toNat →
        exec (.srvWriteus h us) s = .next { s with
          srv := { s.srv with slots := s.srv.slots.set h.toNat { sl with
            ticks := BitVec.ofNat 16 (s.cfg.usToTicks
              (max sl.minUs.toNat (min us.toNat sl.maxUs.toNat) - s.cfg.trimUs)) } }
          res := .unit })

/-- R132: the word of `srv.detach`; after the checks of R121 it clears the attached flag of its slot and,
when no slot stays attached, the enable of T1; the pin, the rest of T1, the channel and the other slots
stay. -/
def Obligations.SrvDetachStopsLast : Prop :=
  (∀ h : Byte, encode (.srvDetach h) = 0x16#8 ++ h ++ 0#48) ∧
  ∀ (s : State) (h : Byte), s.fault = none →
    (s.srv.slots[h.toNat]? = none → exec (.srvDetach h) s = .refused .noSuchHandle) ∧
    ∀ sl : Slot, s.srv.slots[h.toNat]? = some sl →
      (sl.attached = false → exec (.srvDetach h) s = .refused .wrongTypestate) ∧
      (sl.attached = true → exec (.srvDetach h) s = .next { s with
        srv := { s.srv with slots := s.srv.slots.set h.toNat { sl with attached := false } }
        t1 := { s.t1 with ie := s.t1.ie && (s.srv.slots.eraseIdx h.toNat).any (·.attached) }
        res := .unit })

/-- R135: the four cases of the handler body. From channel -1 a new frame starts: the counter is cleared and
slot 0 is served, or the frame ends at once when there is no slot. From the channel of a slot that slot's
pulse ends, and the next slot is served, or the frame ends: the next event at the frame boundary, or the
guard margin away when the counter is close to it. First, what `pin_write` (R186) does: a change of an output
pin's level is written and recorded in `TRACE`. That it does nothing on an input pin is the model's reading of
R39 and R26 (DEDUCED, log 18): an attached servo pin that `rng.new` made the echo pin is such a pin. -/
def Obligations.SrvIsrWalksSlots : Prop :=
  (∀ (p : Byte) (l : Level) (s : State),
    ((getPin s p).dir = .input → pinWrite p l s = s) ∧
    ((getPin s p).level = l → pinWrite p l s = s) ∧
    ((getPin s p).dir = .output → (getPin s p).level ≠ l → pinWrite p l s = { s with
      pins := s.pins.set p.toNat { dir := .output, level := l } p.isLt
      trace := s.trace ++ [{ t := s.t, pin := p, level := l }] })) ∧
  ∀ s : State, s.fault = none →
    (s.srv.channel = -1 → s.srv.slots = [] →
      exec .srvIsr s = .next { s with t1 := { s.t1 with
        cnt := 0
        cmp := if s.cfg.guardTicks < s.cfg.refreshTicks then BitVec.ofNat 16 s.cfg.refreshTicks
          else BitVec.ofNat 16 s.cfg.guardTicks } }) ∧
    (∀ sl, s.srv.channel = -1 → s.srv.slots[0]? = some sl →
      let s1 : State := { s with t1 := { s.t1 with cnt := 0, cmp := sl.ticks },
                                 srv := { s.srv with channel := 0 } }
      exec .srvIsr s = .next (if sl.attached then pinWrite sl.pin .high s1 else s1)) ∧
    (∀ (c : Nat) (cur next : Slot), s.srv.channel = BitVec.ofNat 8 c → c < 12 →
      s.srv.slots[c]? = some cur → s.srv.slots[c + 1]? = some next →
      let s0 := if cur.attached then pinWrite cur.pin .low s else s
      let s1 : State := { s0 with t1 := { s0.t1 with cmp := s.t1.cnt + next.ticks },
                                  srv := { s0.srv with channel := BitVec.ofNat 8 (c + 1) } }
      exec .srvIsr s = .next (if next.attached then pinWrite next.pin .high s1 else s1)) ∧
    (∀ (c : Nat) (cur : Slot), s.srv.channel = BitVec.ofNat 8 c → c < 12 →
      s.srv.slots[c]? = some cur → s.srv.slots[c + 1]? = none →
      let s0 := if cur.attached then pinWrite cur.pin .low s else s
      exec .srvIsr s = .next { s0 with
        t1 := { s0.t1 with cmp :=
          if s.t1.cnt.toNat + s.cfg.guardTicks < s.cfg.refreshTicks then BitVec.ofNat 16 s.cfg.refreshTicks
          else s.t1.cnt + BitVec.ofNat 16 s.cfg.guardTicks }
        srv := { s0.srv with channel := -1 } })

/-- R183, R135 (c) and (d), R136: a compare value set `w` counts ahead (1 to 65536, so that a slot of width
0 takes a full wrap) is matched at the `w`-th count and not before. -/
def Obligations.CompareMatchesAfterItsCounts : Prop :=
  ∀ (s : State) (w : Nat), 1 ≤ w → w ≤ 65536 → s.t1.pend = false →
    s.t1.cmp = s.t1.cnt + BitVec.ofNat 16 w →
    (∀ k, k < w → (countT1^[k] s).t1.pend = false) ∧ (countT1^[w] s).t1.pend = true ∧
    (countT1^[w] s).t1.cnt = s.t1.cmp

/-- R33, R35, R127, R132, R126: every step keeps the multiplexer's invariant (at most twelve slots, the
channel -1 or registered, T1 enabled exactly while a slot is attached, limits ordered and in range). -/
def Obligations.StepKeepsServoInv : Prop :=
  ∀ s t : State, s.cfg.wellFormed = true → ServoInv s → step s = .next t → ServoInv t

/-- R33, R34, R20: no word but `reset` removes a registered slot, lowers `SRV.count`, changes the pin of a
slot, takes the timer back or changes the configuration. That the configuration is a field of State at all
is the model's choice (DESIGN CHOICE, log 1). -/
def Obligations.RegisteredSlotsStay : Prop :=
  ∀ (i : Instr) (s t : State), i ≠ .reset → exec i s = .next t →
    t.cfg = s.cfg ∧ s.srv.slots.length ≤ t.srv.slots.length ∧
    (s.srv.slots.map (·.pin)) <+: (t.srv.slots.map (·.pin)) ∧
    (s.srv.owned = true → t.srv.owned = true)

/-! ## The ranging unit (42_ranging.md) -/

/-- R151: `rng.new` refuses a second driver, then equal pins, then a temperature whose speed of sound is not
positive; else it stores the driver and sets the directions of the two pins, levels kept. -/
def Obligations.RngNewConstructsDriver : Prop :=
  ∀ (s : State) (trig echo : Byte) (temp : Half), s.fault = none →
    (s.rng.cfg.isSome = true → exec (.rngNew trig temp (echo.setWidth 16)) s = .refused .driverExists) ∧
    (s.rng.cfg = none → trig = echo → exec (.rngNew trig temp (echo.setWidth 16)) s = .refused .samePin) ∧
    (s.rng.cfg = none → trig ≠ echo → s.cfg.speedOfSound temp.toInt ≤ 0 →
      exec (.rngNew trig temp (echo.setWidth 16)) s = .refused .badTemperature) ∧
    (s.rng.cfg = none → trig ≠ echo → 0 < s.cfg.speedOfSound temp.toInt →
      ∃ pins, exec (.rngNew trig temp (echo.setWidth 16)) s = .next { s with
          rng := { s.rng with cfg := some { temp := temp, trig := trig, echo := echo } }
          pins := pins
          res := .unit } ∧
        ∀ p : Byte, pins[p.toNat]'p.isLt =
          { dir := if p = trig then .output else if p = echo then .input else (getPin s p).dir
            level := (getPin s p).level })

/-- R155: from Idle with a driver and the edge unit off, `rng.begin` completes in Triggered with the
timestamps cleared, the edge unit armed for rising edges, the loop's start at the current tick, and the
settle and trigger times passed; beside that only what the timers and handlers write may change. With the
trigger pin an output, as `rng.new` makes it (R151), it is low at the end, and when no attached servo shares
it, its pulse is in `TRACE`. Without a driver it is refused, and so is `rng.measure` with a pass length that
is not 0 (R155, R164). -/
def Obligations.RngBeginTriggers : Prop :=
  (∀ s : State, s.fault = none → s.rng.cfg = none →
    exec .rngBegin s = .refused .noDriver ∧
    ∀ n : Quad, n ≠ 0 → exec (.rngMeasure n) s = .refused .noDriver) ∧
  ∀ (s : State) (d : Driver), s.fault = none → s.rng.cfg = some d → s.rng.state = .idle →
    s.edge.mode = .off →
    ∃ t, exec .rngBegin s = .next t ∧
      BackgroundFrame { s with
        rng := { s.rng with state := .triggered }
        edge := { mode := .rising, pend := false }
        meas := .inLoop (t.clk.counter + t.clk.part.setWidth 32) } t ∧
      t.rng.trigTime = none ∧ t.rng.echoTime = none ∧ t.edge.pend = false ∧
      t.t = s.t + 4 * s.cfg.cycPerUs + 10 * s.cfg.cycPerUs ∧
      ((getPin s d.trig).dir = .output → (getPin t d.trig).level = .low) ∧
      ((getPin s d.trig).dir = .output → (∀ sl ∈ s.srv.slots, sl.attached = true → sl.pin ≠ d.trig) →
        { t := s.t + 4 * s.cfg.cycPerUs, pin := d.trig, level := .high } ∈ t.trace ∧
        { t := s.t + 4 * s.cfg.cycPerUs + 10 * s.cfg.cycPerUs, pin := d.trig, level := .low } ∈ t.trace)

/-- R241: the fault `RangingBusy` (0x80) is raised by `rng.begin`, alone or inside `rng.measure`, exactly
when the ranging state is not Idle, before anything changes, and no other word raises a fault. -/
def Obligations.OnlyBusyMeasurementFaults : Prop :=
  (∀ (s : State) (n : Quad), Quiet s → s.fault = none → s.rng.cfg.isSome = true → s.rng.state ≠ .idle →
    exec .rngBegin s = .next { s with fault := some 0x80, cpuI := false } ∧
    (n ≠ 0 → exec (.rngMeasure n) s = .next { s with fault := some 0x80, cpuI := false })) ∧
  (∀ (i : Instr) (s t : State), s.fault = none → exec i s = .next t → t.fault ≠ none →
    (i = .rngBegin ∨ ∃ n, i = .rngMeasure n) ∧ s.rng.state ≠ .idle ∧ t.fault = some 0x80)

/-- R158: one pass of the loop, in a state where no interrupt is waiting: the timeout first, by wrapping
difference; then, once the trigger edge is captured, the re-arm for the falling edge; then the exit when
both timestamps were read. Outside the loop it is refused. -/
def Obligations.RngPollPass : Prop :=
  ∀ s : State, s.fault = none →
    ((∀ start, s.meas ≠ .inLoop start) → exec .rngPoll s = .refused .noLoop) ∧
    ∀ (start : Quad) (d : Driver), Quiet s → s.meas = .inLoop start → s.rng.cfg = some d →
      (s.cfg.timeoutTicks d.temp.toInt ≤ (s.clk.counter + s.clk.part.setWidth 32 - start).toNat →
        exec .rngPoll s = .next { s with meas := .exiting }) ∧
      ((s.clk.counter + s.clk.part.setWidth 32 - start).toNat < s.cfg.timeoutTicks d.temp.toInt →
        (s.rng.state = .triggered → s.rng.trigTime.isSome = true →
          exec .rngPoll s = .next { s with
            rng := { s.rng with state := .measuring }
            edge := { mode := .falling, pend := false }
            meas := if s.rng.echoTime.isSome then .exiting else .inLoop start }) ∧
        ((s.rng.state ≠ .triggered ∨ s.rng.trigTime = none) →
          exec .rngPoll s = .next { s with
            meas := if s.rng.trigTime.isSome ∧ s.rng.echoTime.isSome then .exiting else .inLoop start }))

/-- R161: in a state where no interrupt is waiting, `rng.end` disarms the edge unit, goes to Idle, ends the
measurement and returns the error or the difference of the timestamps; before the loop decided to exit it
is refused. -/
def Obligations.RngEndReturnsResult : Prop :=
  ∀ s : State, s.fault = none →
    (s.meas ≠ .exiting → exec .rngEnd s = .refused .notExiting) ∧
    (Quiet s → s.meas = .exiting → exec .rngEnd s = .next { s with
      edge := { mode := .off, pend := false }
      rng := { s.rng with state := .idle }
      meas := .noMeas
      res := match s.rng.trigTime, s.rng.echoTime with
        | none, _ => .err 3
        | some _, none => .err 4
        | some tt, some et => if et ≤ tt then .err 5 else .u32 (et - tt) })

/-- R162 (which the spec marks as derived from R161): in every state in which `rng.end` completes, (a) a duration it returns is at least 1, (b) the
unit is then Idle, disarmed and out of `measure()`, (c) without a trigger edge the result is `NoTrigger`,
(d) with an echo timestamp not after the trigger timestamp it is `InvalidResult`. -/
def Obligations.RngEndLaws : Prop :=
  ∀ s t : State, exec .rngEnd s = .next t →
    (∀ d, t.res = .u32 d → 1 ≤ d.toNat) ∧
    (t.rng.state = .idle ∧ t.edge.mode = .off ∧ t.meas = .noMeas) ∧
    (s.rng.trigTime = none → t.res = .err 3) ∧
    (∀ tt et, s.rng.trigTime = some tt → s.rng.echoTime = some et → et.toNat ≤ tt.toNat → t.res = .err 5)

/-- R164, R159, R162 (c): with the clock running and interrupts on, `rng.measure` completes: no edge can come
inside one word, so it ends with `NoTrigger`, back in Idle, with only what the timers and handlers write
changed beside. One pass of `n` cycles steps over no more than `n` ticks; the statement is for the pass
lengths within the bound below, with which no pass can step over the whole window in which the wrapping
difference is past the timeout. -/
def Obligations.RngMeasureTimesOut : Prop :=
  ∀ (s : State) (n : Quad) (d : Driver), s.cfg.wellFormed = true → Quiet s → s.fault = none → ClockInv s →
    s.clk.started = true → s.cpuI = true → s.rng.cfg = some d → s.rng.state = .idle → s.edge.mode = .off →
    s.meas = .noMeas → n ≠ 0 → s.cfg.timeoutTicks d.temp.toInt + n.toNat ≤ 2 ^ 32 →
    ∃ t, exec (.rngMeasure n) s = .next t ∧ BackgroundFrame { s with res := .err 3 } t

/-- R159, R284, U14: with interrupts off, or T0 not running or its interrupt disabled, and a timeout that is
not zero, `rng.measure` never ends; a pass length of zero is refused. -/
def Obligations.RngMeasureHangsOnStoppedClock : Prop :=
  ∀ (s : State) (n : Quad) (d : Driver), s.fault = none →
    exec (.rngMeasure 0) s = .refused .zeroPoll ∧
    (Quiet s → s.rng.cfg = some d → s.rng.state = .idle → s.edge.mode = .off → n ≠ 0 →
      0 < s.cfg.timeoutTicks d.temp.toInt → (s.cpuI = false ∨ s.t0.run = false ∨ s.t0.ie = false) →
      exec (.rngMeasure n) s = .fault .hang)

/-- R166: the word of `rng.edge`; the edge handler stamps the current tick into the trigger cell in
Triggered, into the echo cell in Measuring (overwriting what stood there), and does nothing in Idle. -/
def Obligations.RngEdgeStampsByState : Prop :=
  encode .rngEdge = 0x2500000000000000 ∧
  ∀ s : State, s.fault = none →
    (s.rng.state = .triggered → exec .rngEdge s = .next { s with
      rng := { s.rng with trigTime := some (s.clk.counter + s.clk.part.setWidth 32) } }) ∧
    (s.rng.state = .measuring → exec .rngEdge s = .next { s with
      rng := { s.rng with echoTime := some (s.clk.counter + s.clk.part.setWidth 32) } }) ∧
    (s.rng.state = .idle → exec .rngEdge s = .next s)

/-- R37, R150, R155, R158, R161: every step keeps the ranging unit's invariant (`MAIN.meas` is NoMeas exactly
in Idle, the edge unit armed as the state says, no echo timestamp without a trigger timestamp, the trigger
pin of a driver an output, R151). -/
def Obligations.StepKeepsRangingInv : Prop :=
  ∀ s t : State, RangingInv s → step s = .next t → RangingInv t

/-- R150: the transitions of the ranging state: Idle to Triggered by `rng.begin`, Triggered to Measuring by
`rng.poll`, to Idle by `rng.end`; no other word but `reset` leaves it changed. -/
def Obligations.RangingTransitions : Prop :=
  ∀ (i : Instr) (s t : State), i ≠ .reset → exec i s = .next t →
    t.rng.state = s.rng.state ∨
    (i = .rngBegin ∧ s.rng.state = .idle ∧ t.rng.state = .triggered) ∨
    (i = .rngPoll ∧ s.rng.state = .triggered ∧ t.rng.state = .measuring) ∨
    (i = .rngEnd ∧ t.rng.state = .idle)

/-! ## Time, pins, masking, reset (43_environment.md) -/

/-- R180: `adv a` then `adv b`, with the `DISPATCH()` between them, is `adv (a+b)`. -/
def Obligations.AdvSplits : Prop :=
  ∀ (s : State) (a b : Quad), Quiet s → s.fault = none → a.toNat + b.toNat < 2 ^ 32 →
    ∃ t, exec (.adv a) s = .next t ∧ exec (.adv b) (dispatch t) = exec (.adv (a + b)) s

/-- R180, R181: `adv n` is `ADV(n)`: exactly its cycles pass, and only what the timers and the handlers write
changes; `adv 0` changes nothing. `ADV` runs one cycle after another, and one cycle is the counting of the
timers (a cycle with `CPU.I` at 0, which MaskedTimeOnlyCounts gives) with `DISPATCH()` after it. -/
def Obligations.AdvLetsTimePass : Prop :=
  (∀ (s : State) (n : Quad), s.fault = none →
    exec (.adv n) s = .next (advance n.toNat s) ∧ (advance n.toNat s).t = s.t + n.toNat ∧
    BackgroundFrame s (advance n.toNat s) ∧ exec (.adv 0) s = .next s) ∧
  ∀ (n : Nat) (s : State),
    advance (n + 1) s = advance n (cycle s) ∧
    cycle s = dispatch { advance 1 { s with cpuI := false } with cpuI := s.cpuI }

/-- R184, R185: `pin.set` is refused on an output; on an input it sets the level, and sets `EDGE.IF` exactly
when the pin is the echo pin and its change is the edge the unit is armed for. -/
def Obligations.PinSetDrivesInput : Prop :=
  ∀ (s : State) (p : Byte) (c : Half) (l : Level), s.fault = none →
    ((c = 0 ∧ l = .low) ∨ (c = 1 ∧ l = .high)) →
    ((getPin s p).dir = .output → exec (.pinSet p c) s = .refused .pinIsOutput) ∧
    ((getPin s p).dir = .input →
      ∃ pend, exec (.pinSet p c) s = .next { s with
          pins := s.pins.set p.toNat { dir := .input, level := l } p.isLt
          edge := { s.edge with pend := pend } } ∧
        (pend = true ↔ s.edge.pend = true ∨
          ((∃ d, s.rng.cfg = some d ∧ d.echo = p) ∧
            ((s.edge.mode = .rising ∧ (getPin s p).level = .low ∧ l = .high) ∨
             (s.edge.mode = .falling ∧ (getPin s p).level = .high ∧ l = .low)))))

/-- R187, R188: `irq.off` clears `CPU.I`, `irq.on` sets it, and neither meaning changes anything else. -/
def Obligations.IrqWordsSetMask : Prop :=
  ∀ s : State, s.fault = none →
    exec .irqOff s = .next { s with cpuI := false } ∧ exec .irqOn s = .next { s with cpuI := true }

/-- R189, R42, R271: in every state, the faulted one too, `reset` puts every element at its reset value, for
some value of `T1.CMP`, which the rules leave open. That the configuration and the script stay and `DEC`
is 0 without a decoder is the model's choice (logs 6 and 8). -/
def Obligations.ResetWordRestoresResetState : Prop :=
  ∀ s : State, ∃ cmp : Half, exec .reset s = .next {
    cfg := s.cfg, script := s.script, draws := s.draws + 1
    cpuI := false, fault := none, res := .none, t := 0, trace := []
    t0 := { run := false, prescale := .p1, cmp := 0, cnt := 0, ie := false, pend := false }
    clk := { counter := 0, part := 0, started := false }
    t1 := { prescale := .p1, cmp := cmp, cnt := 0, ie := false, pend := false }
    srv := { owned := false, slots := [], channel := -1 }
    rng := { state := .idle, trigTime := none, echoTime := none, cfg := none }
    meas := .noMeas, edge := { mode := .off, pend := false }
    pins := Vector.replicate 256 { dir := .input, level := .low }
    mbx := none, dec := s.cfg.decoder.getD 0, tur := none }

/-- R42: what the machine right after reset holds in every element, for every well-formed configuration and
every value of the unspecified `T1.CMP`. -/
def Obligations.ResetStateValues : Prop :=
  ∀ (c : Config) (cmp : Half), c.wellFormed = true → ∃ s, State.build c cmp = some s ∧ s.cfg = c ∧
  s.t1.cmp = cmp ∧ (∀ init, c.decoder = some init → s.dec = init) ∧
  s.cpuI = false ∧ s.fault = none ∧ s.res = .none ∧ s.t = 0 ∧ s.trace = [] ∧
  s.t0 = { run := false, prescale := .p1, cmp := 0, cnt := 0, ie := false, pend := false } ∧
  s.clk = { counter := 0, part := 0, started := false } ∧
  (s.t1.prescale = .p1 ∧ s.t1.cnt = 0 ∧ s.t1.ie = false ∧ s.t1.pend = false) ∧
  s.srv.owned = false ∧ s.srv.slots = [] ∧ s.srv.channel.toInt = -1 ∧
  s.rng = { state := .idle, trigTime := none, echoTime := none, cfg := none } ∧
  s.meas = .noMeas ∧ s.edge = { mode := .off, pend := false } ∧
  (∀ p : Byte, getPin s p = { dir := .input, level := .low }) ∧
  s.mbx = none ∧ s.tur = none

/-- R242: raising the fault sets its code and clears `CPU.I`; from then on every word but `reset` is refused
and `DISPATCH()` takes nothing. -/
def Obligations.FaultedMachineRefusesAllButReset : Prop :=
  (∀ (s : State) (code : Byte), raiseFault code s = { s with fault := some code, cpuI := false }) ∧
  ∀ (s : State), s.fault.isSome = true →
    (∀ i : Instr, i ≠ .reset → exec i s = .refused .faulted) ∧
    (∀ w : Word, decode w ≠ .ok .reset → ∃ r, applyWord w s = .refused r) ∧
    dispatch s = s

/-! ## The host side (44_host.md) -/

/-- R203, for every decoder: with none configured `cmd.edge` is refused; else the decoder gets the current
tick shifted right, its new state is kept, a decoded command overwrites the mailbox and any other outcome
leaves it. -/
def Obligations.CmdEdgeFeedsDecoder : Prop :=
  ∀ s : State, s.fault = none →
    (s.cfg.decoder = none → exec .cmdEdge s = .refused .noDecoder) ∧
    (s.cfg.decoder.isSome = true →
      let out := Config.decoderStep s.dec ((s.clk.counter + s.clk.part.setWidth 32) >>> s.cfg.decShift)
      exec .cmdEdge s = .next { s with
        dec := out.1
        mbx := match out.2 with
          | .command a c r => some { address := a, command := c, rep := r }
          | .nothing => s.mbx
          | .malformed => s.mbx })

/-- R208, R206: the word of `mbx.fetch`; in a state where no interrupt is waiting it returns what the mailbox
holds and empties it. `mbx.put` overwrites the mailbox. -/
def Obligations.MailboxPutAndFetch : Prop :=
  encode .mbxFetch = 0x4200000000000000 ∧
  ∀ s : State, s.fault = none →
    (∀ (a c : Byte) (r : Bool),
      exec (.mbxPut (a.setWidth 16) (c.setWidth 16) (if r then 1 else 0)) s =
        .next { s with mbx := some { address := a, command := c, rep := r } }) ∧
    (Quiet s → exec .mbxFetch s = .next { s with
      mbx := none
      res := match s.mbx with
        | some m => .cmd m.address m.command m.rep
        | none => .noCmd })

/-- R213, R214: UP lowers the pitch by the step, not below its minimum, writes the new pitch to the pitch
servo and waits the settle delay; DOWN raises it, not above its maximum; at the bound neither writes
anything. The address and the repeat flag make no difference. Where a pitch servo that was detached would be
written, the whole word is refused (R212), so the new pitch is not kept (log 23). -/
def Obligations.DispatchUpAndDown : Prop :=
  ∀ (s : State) (a : Byte) (r : Bool) (tu : Turret), s.fault = none → s.tur = some tu →
    let word (code : Half) : Instr := .dispCmd (a.setWidth 16) code (if r then 1 else 0)
    let cycles := s.cfg.pitchSettleMs * 1000 * s.cfg.cycPerUs
    let written (sl : Slot) (pitch : Nat) : State := { s with
      tur := some { tu with pitch := pitch }
      srv := { s.srv with
        slots := s.srv.slots.set tu.pit { sl with
          ticks := BitVec.ofNat 16 (widthTicks s.cfg sl (angleToUs sl pitch)) } }
      res := .unit }
    (tu.pitch ≤ s.cfg.pitchMin → exec (word 0x52) s = .next { s with res := .unit }) ∧
    (s.cfg.pitchMax ≤ tu.pitch → exec (word 0x18) s = .next { s with res := .unit }) ∧
    ∀ sl, s.srv.slots[tu.pit]? = some sl →
      (sl.attached = false →
        (s.cfg.pitchMin < tu.pitch → exec (word 0x52) s = .refused .wrongTypestate) ∧
        (tu.pitch < s.cfg.pitchMax → exec (word 0x18) s = .refused .wrongTypestate)) ∧
      (Quiet s → sl.attached = true →
        (s.cfg.pitchMin < tu.pitch → exec (word 0x52) s = .next (advance cycles
          (written sl (max s.cfg.pitchMin (tu.pitch - s.cfg.pitchStep))))) ∧
        (tu.pitch < s.cfg.pitchMax → exec (word 0x18) s = .next (advance cycles
          (written sl (min s.cfg.pitchMax (tu.pitch + s.cfg.pitchStep))))))

/-- R215 to R217: LEFT and RIGHT write the spin width to the yaw servo, hold it for the spin time and write
the centre width; OK and STAR, when not a repeat, do the same with the fire width on the roll servo, STAR
six times as long. Where the servo to be written was detached, the whole word is refused (R212, log 23). -/
def Obligations.DispatchPulsesYawAndRoll : Prop :=
  ∀ (s : State) (a : Byte) (r : Bool) (tu : Turret), s.fault = none → s.tur = some tu →
    let stored (h : Nat) (sl : Slot) (us : Nat) (m : State) : State := { m with
      srv := { m.srv with
        slots := m.srv.slots.set h { sl with ticks := BitVec.ofNat 16 (widthTicks s.cfg sl us) } }
      res := .unit }
    let pulsed (h : Nat) (sl : Slot) (us ms : Nat) : State :=
      stored h sl 1500 (advance (ms * 1000 * s.cfg.cycPerUs) (stored h sl us s))
    let word (code : Half) (rep : Bool) : Instr := .dispCmd (a.setWidth 16) code (if rep then 1 else 0)
    (∀ sl, s.srv.slots[tu.yaw]? = some sl →
      (sl.attached = false → exec (word 0x08 r) s = .refused .wrongTypestate ∧
        exec (word 0x5A r) s = .refused .wrongTypestate) ∧
      (Quiet s → sl.attached = true →
        exec (word 0x08 r) s = .next (pulsed tu.yaw sl s.cfg.yawLeftUs s.cfg.yawSpinMs) ∧
        exec (word 0x5A r) s = .next (pulsed tu.yaw sl s.cfg.yawRightUs s.cfg.yawSpinMs))) ∧
    (∀ sl, s.srv.slots[tu.roll]? = some sl →
      (sl.attached = false → exec (word 0x1C false) s = .refused .wrongTypestate ∧
        exec (word 0x16 false) s = .refused .wrongTypestate) ∧
      (Quiet s → sl.attached = true →
        exec (word 0x1C false) s = .next (pulsed tu.roll sl s.cfg.rollFireUs s.cfg.rollFireMs) ∧
        exec (word 0x16 false) s = .next (pulsed tu.roll sl s.cfg.rollFireUs (6 * s.cfg.rollFireMs))))

/-- R219, with R212, R216 and R217: a command code other than the six changes nothing but `RES`, and so do a
repeated OK and STAR; with no turret every dispatch is refused. -/
def Obligations.DispatchIgnoresUnknownAndRepeats : Prop :=
  ∀ (s : State) (a b : Byte) (r : Bool), s.fault = none →
    let word (rep : Bool) : Instr := .dispCmd (a.setWidth 16) (b.setWidth 16) (if rep then 1 else 0)
    (s.tur.isSome = true → b.toNat ∉ [0x08, 0x5A, 0x52, 0x18, 0x1C, 0x16] →
      exec (word r) s = .next { s with res := .unit }) ∧
    (s.tur.isSome = true → b.toNat ∈ [0x1C, 0x16] → exec (word true) s = .next { s with res := .unit }) ∧
    (s.tur = none → exec (word r) s = .refused .noTurret)

/-- R220: `tur.build` refuses a second build and what `rng.new` would refuse, in that order; it stops with the
error of the first registration that fails, leaving no turret and no driver but the slots registered before
it, attached, their pins outputs with their levels kept, T1 armed when one was attached and none had been;
with three free slots it registers and attaches yaw, pitch and roll, constructs the driver and fills `TUR`.
Nothing else changes in either case. -/
def Obligations.TurBuildWiresTurret : Prop :=
  ∀ (s : State) (yaw pitch roll trig echo : Byte) (temp : Half), s.fault = none →
    let word : Instr := .turBuild yaw pitch roll trig echo temp
    let slot (p : Byte) : Slot :=
      { pin := p, ticks := BitVec.ofNat 16 s.cfg.defaultTicks, attached := true, minUs := 544, maxUs := 2400 }
    let sound := s.cfg.speedOfSound temp.toInt
    (s.tur.isSome = true → exec word s = .refused .alreadyBuilt) ∧
    (s.tur = none → s.rng.cfg.isSome = true → exec word s = .refused .driverExists) ∧
    (s.tur = none → s.rng.cfg = none → trig = echo → exec word s = .refused .samePin) ∧
    (s.tur = none → s.rng.cfg = none → trig ≠ echo → sound ≤ 0 → exec word s = .refused .badTemperature) ∧
    (s.tur = none → s.rng.cfg = none → trig ≠ echo → 0 < sound →
      (s.srv.owned = false → exec word s = .next { s with res := .err 1 }) ∧
      (s.srv.owned = true → s.srv.slots.length ≤ 12 → 12 < s.srv.slots.length + 3 →
        let added := [yaw, pitch].take (12 - s.srv.slots.length)
        ∃ pins, exec word s = .next { s with
            srv := { s.srv with slots := s.srv.slots ++ added.map slot }
            t1 := if added = [] ∨ s.srv.slots.any (·.attached) = true then s.t1
              else { prescale := s.cfg.srvPrescale, cmp := s.t1.cmp, cnt := 0, ie := true, pend := false }
            pins := pins
            res := .err 2 } ∧
          ∀ p : Byte, pins[p.toNat]'p.isLt =
            { dir := if p ∈ added then .output else (getPin s p).dir
              level := (getPin s p).level }) ∧
      (s.srv.owned = true → s.srv.slots.length + 3 ≤ 12 →
        ∃ pins, exec word s = .next { s with
            srv := { s.srv with slots := s.srv.slots ++ [slot yaw, slot pitch, slot roll] }
            t1 := if s.srv.slots.any (·.attached) then s.t1
              else { prescale := s.cfg.srvPrescale, cmp := s.t1.cmp, cnt := 0, ie := true, pend := false }
            rng := { s.rng with cfg := some { temp := temp, trig := trig, echo := echo } }
            tur := some { pitch := s.cfg.pitchInit, yaw := s.srv.slots.length,
                          pit := s.srv.slots.length + 1, roll := s.srv.slots.length + 2 }
            pins := pins
            res := .unit } ∧
          ∀ p : Byte, pins[p.toNat]'p.isLt =
            { dir := if p = echo then .input else if p ∈ [yaw, pitch, roll, trig] then .output
                else (getPin s p).dir
              level := (getPin s p).level }))

/-- R40, R213, R214, R220: every step keeps the turret's invariant (the pitch within its bounds, three
distinct registered handles, a constructed driver). -/
def Obligations.StepKeepsTurretInv : Prop :=
  ∀ s t : State, s.cfg.wellFormed = true → TurretInv s → step s = .next t → TurretInv t

/-! ## The whole machine -/

/-- R21: a word that returns nothing leaves the result latch as it was, whatever interrupts run inside it. -/
def Obligations.WordsReturningNothingKeepResult : Prop :=
  ∀ (i : Instr) (s t : State),
    (i ∈ [Instr.clkTick, .srvIsr, .rngBegin, .rngPoll, .rngEdge, .irqOff, .irqOn, .cmdEdge] ∨
      (∃ n, i = .adv n) ∨ (∃ p l, i = .pinSet p l) ∨ (∃ a c r, i = .mbxPut a c r)) →
    exec i s = .next t → t.res = s.res

/-- R29, R27, R100, R182: every step keeps the Clock's invariant (the sub-counter at most the threshold, T0
configured exactly when started, its counter never above its compare value). -/
def Obligations.StepKeepsClockInv : Prop :=
  ∀ s t : State, s.cfg.wellFormed = true → ClockInv s → step s = .next t → ClockInv t

/-- R24, R242, R26, R186: every step keeps the only fault code 0x80 and the mask in the faulted state, and
keeps `TRACE` in the order of time with no entry later than now. -/
def Obligations.StepKeepsFaultAndTraceInv : Prop :=
  ∀ s t : State, step s = .next t → (FaultInv s → FaultInv t) ∧ (TraceInv s → TraceInv t)

/-- R42, R9, R271: for every well-formed configuration and every value of `T1.CMP` the machine right after
reset meets every invariant, and an ill-formed configuration has no machine. `State.reset` is the machine of
CFG-A with `T1.CMP` 0 (the model's choice, logs 1 and 4). -/
def Obligations.ResetMeetsInvariants : Prop :=
  (∀ (c : Config) (cmp : Half) (s : State), State.build c cmp = some s →
    Quiet s ∧ ClockInv s ∧ ServoInv s ∧ RangingInv s ∧ TurretInv s ∧ FaultInv s ∧ TraceInv s) ∧
  (∀ (c : Config) (cmp : Half), State.build c cmp = none ↔ c.wellFormed = false) ∧
  State.build cfgA 0 = some State.reset

/-- R39, R186: a pin that is no attached slot's pin and not the trigger pin keeps its level through every
word but `pin.set` on it and `reset`, and `TRACE` (R26) gets no entry for it. The same holds of every pin that
is an input before and after the word, whatever slot or driver names it, but for `tur.build`, which may make
it an output in between; that `pin_write` spares an input pin is the model's reading (log 18). -/
def Obligations.PinLevelsHaveTheirWriters : Prop :=
  ∀ (i : Instr) (s t : State) (p : Byte), i ≠ .reset → (∀ l, i ≠ .pinSet p l) → exec i s = .next t →
    ((∀ sl ∈ s.srv.slots, sl.attached = true → sl.pin ≠ p) ∧ (∀ d, s.rng.cfg = some d → d.trig ≠ p) ∨
      (getPin s p).dir = .input ∧ (getPin t p).dir = .input ∧
        ∀ yaw pitch roll trig echo temp, i ≠ .turBuild yaw pitch roll trig echo temp) →
    (getPin t p).level = (getPin s p).level ∧
    t.trace.filter (·.pin == p) = s.trace.filter (·.pin == p)
end

