-- ==== Sys2Proof/Laws/State.lean ====
section
/-! SUPPORT. What each named update of State leaves in each field: one lemma per field per update, so that
no proof unfolds a record update. -/

namespace Sys2Proof.Machine.State

variable (s : State)

/-! ### setScript -/

@[simp] theorem setScript_cfg (v : List Word) : (s.setScript v).cfg = s.cfg := rfl
@[simp] theorem setScript_script (v : List Word) : (s.setScript v).script = v := rfl
@[simp] theorem setScript_draws (v : List Word) : (s.setScript v).draws = s.draws := rfl
@[simp] theorem setScript_cpuI (v : List Word) : (s.setScript v).cpuI = s.cpuI := rfl
@[simp] theorem setScript_fault (v : List Word) : (s.setScript v).fault = s.fault := rfl
@[simp] theorem setScript_res (v : List Word) : (s.setScript v).res = s.res := rfl
@[simp] theorem setScript_t (v : List Word) : (s.setScript v).t = s.t := rfl
@[simp] theorem setScript_trace (v : List Word) : (s.setScript v).trace = s.trace := rfl
@[simp] theorem setScript_t0 (v : List Word) : (s.setScript v).t0 = s.t0 := rfl
@[simp] theorem setScript_clk (v : List Word) : (s.setScript v).clk = s.clk := rfl
@[simp] theorem setScript_t1 (v : List Word) : (s.setScript v).t1 = s.t1 := rfl
@[simp] theorem setScript_srv (v : List Word) : (s.setScript v).srv = s.srv := rfl
@[simp] theorem setScript_rng (v : List Word) : (s.setScript v).rng = s.rng := rfl
@[simp] theorem setScript_meas (v : List Word) : (s.setScript v).meas = s.meas := rfl
@[simp] theorem setScript_edge (v : List Word) : (s.setScript v).edge = s.edge := rfl
@[simp] theorem setScript_pins (v : List Word) : (s.setScript v).pins = s.pins := rfl
@[simp] theorem setScript_mbx (v : List Word) : (s.setScript v).mbx = s.mbx := rfl
@[simp] theorem setScript_dec (v : List Word) : (s.setScript v).dec = s.dec := rfl
@[simp] theorem setScript_tur (v : List Word) : (s.setScript v).tur = s.tur := rfl
@[simp] theorem setScript_srvCount (v : List Word) : (s.setScript v).srvCount = s.srvCount := rfl

/-! ### setDraws -/

@[simp] theorem setDraws_cfg (v : Nat) : (s.setDraws v).cfg = s.cfg := rfl
@[simp] theorem setDraws_script (v : Nat) : (s.setDraws v).script = s.script := rfl
@[simp] theorem setDraws_draws (v : Nat) : (s.setDraws v).draws = v := rfl
@[simp] theorem setDraws_cpuI (v : Nat) : (s.setDraws v).cpuI = s.cpuI := rfl
@[simp] theorem setDraws_fault (v : Nat) : (s.setDraws v).fault = s.fault := rfl
@[simp] theorem setDraws_res (v : Nat) : (s.setDraws v).res = s.res := rfl
@[simp] theorem setDraws_t (v : Nat) : (s.setDraws v).t = s.t := rfl
@[simp] theorem setDraws_trace (v : Nat) : (s.setDraws v).trace = s.trace := rfl
@[simp] theorem setDraws_t0 (v : Nat) : (s.setDraws v).t0 = s.t0 := rfl
@[simp] theorem setDraws_clk (v : Nat) : (s.setDraws v).clk = s.clk := rfl
@[simp] theorem setDraws_t1 (v : Nat) : (s.setDraws v).t1 = s.t1 := rfl
@[simp] theorem setDraws_srv (v : Nat) : (s.setDraws v).srv = s.srv := rfl
@[simp] theorem setDraws_rng (v : Nat) : (s.setDraws v).rng = s.rng := rfl
@[simp] theorem setDraws_meas (v : Nat) : (s.setDraws v).meas = s.meas := rfl
@[simp] theorem setDraws_edge (v : Nat) : (s.setDraws v).edge = s.edge := rfl
@[simp] theorem setDraws_pins (v : Nat) : (s.setDraws v).pins = s.pins := rfl
@[simp] theorem setDraws_mbx (v : Nat) : (s.setDraws v).mbx = s.mbx := rfl
@[simp] theorem setDraws_dec (v : Nat) : (s.setDraws v).dec = s.dec := rfl
@[simp] theorem setDraws_tur (v : Nat) : (s.setDraws v).tur = s.tur := rfl
@[simp] theorem setDraws_srvCount (v : Nat) : (s.setDraws v).srvCount = s.srvCount := rfl

/-! ### setCpuI -/

@[simp] theorem setCpuI_cfg (v : Bool) : (s.setCpuI v).cfg = s.cfg := rfl
@[simp] theorem setCpuI_script (v : Bool) : (s.setCpuI v).script = s.script := rfl
@[simp] theorem setCpuI_draws (v : Bool) : (s.setCpuI v).draws = s.draws := rfl
@[simp] theorem setCpuI_cpuI (v : Bool) : (s.setCpuI v).cpuI = v := rfl
@[simp] theorem setCpuI_fault (v : Bool) : (s.setCpuI v).fault = s.fault := rfl
@[simp] theorem setCpuI_res (v : Bool) : (s.setCpuI v).res = s.res := rfl
@[simp] theorem setCpuI_t (v : Bool) : (s.setCpuI v).t = s.t := rfl
@[simp] theorem setCpuI_trace (v : Bool) : (s.setCpuI v).trace = s.trace := rfl
@[simp] theorem setCpuI_t0 (v : Bool) : (s.setCpuI v).t0 = s.t0 := rfl
@[simp] theorem setCpuI_clk (v : Bool) : (s.setCpuI v).clk = s.clk := rfl
@[simp] theorem setCpuI_t1 (v : Bool) : (s.setCpuI v).t1 = s.t1 := rfl
@[simp] theorem setCpuI_srv (v : Bool) : (s.setCpuI v).srv = s.srv := rfl
@[simp] theorem setCpuI_rng (v : Bool) : (s.setCpuI v).rng = s.rng := rfl
@[simp] theorem setCpuI_meas (v : Bool) : (s.setCpuI v).meas = s.meas := rfl
@[simp] theorem setCpuI_edge (v : Bool) : (s.setCpuI v).edge = s.edge := rfl
@[simp] theorem setCpuI_pins (v : Bool) : (s.setCpuI v).pins = s.pins := rfl
@[simp] theorem setCpuI_mbx (v : Bool) : (s.setCpuI v).mbx = s.mbx := rfl
@[simp] theorem setCpuI_dec (v : Bool) : (s.setCpuI v).dec = s.dec := rfl
@[simp] theorem setCpuI_tur (v : Bool) : (s.setCpuI v).tur = s.tur := rfl
@[simp] theorem setCpuI_srvCount (v : Bool) : (s.setCpuI v).srvCount = s.srvCount := rfl

/-! ### setFault -/

@[simp] theorem setFault_cfg (v : Option Byte) : (s.setFault v).cfg = s.cfg := rfl
@[simp] theorem setFault_script (v : Option Byte) : (s.setFault v).script = s.script := rfl
@[simp] theorem setFault_draws (v : Option Byte) : (s.setFault v).draws = s.draws := rfl
@[simp] theorem setFault_cpuI (v : Option Byte) : (s.setFault v).cpuI = s.cpuI := rfl
@[simp] theorem setFault_fault (v : Option Byte) : (s.setFault v).fault = v := rfl
@[simp] theorem setFault_res (v : Option Byte) : (s.setFault v).res = s.res := rfl
@[simp] theorem setFault_t (v : Option Byte) : (s.setFault v).t = s.t := rfl
@[simp] theorem setFault_trace (v : Option Byte) : (s.setFault v).trace = s.trace := rfl
@[simp] theorem setFault_t0 (v : Option Byte) : (s.setFault v).t0 = s.t0 := rfl
@[simp] theorem setFault_clk (v : Option Byte) : (s.setFault v).clk = s.clk := rfl
@[simp] theorem setFault_t1 (v : Option Byte) : (s.setFault v).t1 = s.t1 := rfl
@[simp] theorem setFault_srv (v : Option Byte) : (s.setFault v).srv = s.srv := rfl
@[simp] theorem setFault_rng (v : Option Byte) : (s.setFault v).rng = s.rng := rfl
@[simp] theorem setFault_meas (v : Option Byte) : (s.setFault v).meas = s.meas := rfl
@[simp] theorem setFault_edge (v : Option Byte) : (s.setFault v).edge = s.edge := rfl
@[simp] theorem setFault_pins (v : Option Byte) : (s.setFault v).pins = s.pins := rfl
@[simp] theorem setFault_mbx (v : Option Byte) : (s.setFault v).mbx = s.mbx := rfl
@[simp] theorem setFault_dec (v : Option Byte) : (s.setFault v).dec = s.dec := rfl
@[simp] theorem setFault_tur (v : Option Byte) : (s.setFault v).tur = s.tur := rfl
@[simp] theorem setFault_srvCount (v : Option Byte) : (s.setFault v).srvCount = s.srvCount := rfl

/-! ### setRes -/

@[simp] theorem setRes_cfg (v : Res) : (s.setRes v).cfg = s.cfg := rfl
@[simp] theorem setRes_script (v : Res) : (s.setRes v).script = s.script := rfl
@[simp] theorem setRes_draws (v : Res) : (s.setRes v).draws = s.draws := rfl
@[simp] theorem setRes_cpuI (v : Res) : (s.setRes v).cpuI = s.cpuI := rfl
@[simp] theorem setRes_fault (v : Res) : (s.setRes v).fault = s.fault := rfl
@[simp] theorem setRes_res (v : Res) : (s.setRes v).res = v := rfl
@[simp] theorem setRes_t (v : Res) : (s.setRes v).t = s.t := rfl
@[simp] theorem setRes_trace (v : Res) : (s.setRes v).trace = s.trace := rfl
@[simp] theorem setRes_t0 (v : Res) : (s.setRes v).t0 = s.t0 := rfl
@[simp] theorem setRes_clk (v : Res) : (s.setRes v).clk = s.clk := rfl
@[simp] theorem setRes_t1 (v : Res) : (s.setRes v).t1 = s.t1 := rfl
@[simp] theorem setRes_srv (v : Res) : (s.setRes v).srv = s.srv := rfl
@[simp] theorem setRes_rng (v : Res) : (s.setRes v).rng = s.rng := rfl
@[simp] theorem setRes_meas (v : Res) : (s.setRes v).meas = s.meas := rfl
@[simp] theorem setRes_edge (v : Res) : (s.setRes v).edge = s.edge := rfl
@[simp] theorem setRes_pins (v : Res) : (s.setRes v).pins = s.pins := rfl
@[simp] theorem setRes_mbx (v : Res) : (s.setRes v).mbx = s.mbx := rfl
@[simp] theorem setRes_dec (v : Res) : (s.setRes v).dec = s.dec := rfl
@[simp] theorem setRes_tur (v : Res) : (s.setRes v).tur = s.tur := rfl
@[simp] theorem setRes_srvCount (v : Res) : (s.setRes v).srvCount = s.srvCount := rfl

/-! ### setT -/

@[simp] theorem setT_cfg (v : Nat) : (s.setT v).cfg = s.cfg := rfl
@[simp] theorem setT_script (v : Nat) : (s.setT v).script = s.script := rfl
@[simp] theorem setT_draws (v : Nat) : (s.setT v).draws = s.draws := rfl
@[simp] theorem setT_cpuI (v : Nat) : (s.setT v).cpuI = s.cpuI := rfl
@[simp] theorem setT_fault (v : Nat) : (s.setT v).fault = s.fault := rfl
@[simp] theorem setT_res (v : Nat) : (s.setT v).res = s.res := rfl
@[simp] theorem setT_t (v : Nat) : (s.setT v).t = v := rfl
@[simp] theorem setT_trace (v : Nat) : (s.setT v).trace = s.trace := rfl
@[simp] theorem setT_t0 (v : Nat) : (s.setT v).t0 = s.t0 := rfl
@[simp] theorem setT_clk (v : Nat) : (s.setT v).clk = s.clk := rfl
@[simp] theorem setT_t1 (v : Nat) : (s.setT v).t1 = s.t1 := rfl
@[simp] theorem setT_srv (v : Nat) : (s.setT v).srv = s.srv := rfl
@[simp] theorem setT_rng (v : Nat) : (s.setT v).rng = s.rng := rfl
@[simp] theorem setT_meas (v : Nat) : (s.setT v).meas = s.meas := rfl
@[simp] theorem setT_edge (v : Nat) : (s.setT v).edge = s.edge := rfl
@[simp] theorem setT_pins (v : Nat) : (s.setT v).pins = s.pins := rfl
@[simp] theorem setT_mbx (v : Nat) : (s.setT v).mbx = s.mbx := rfl
@[simp] theorem setT_dec (v : Nat) : (s.setT v).dec = s.dec := rfl
@[simp] theorem setT_tur (v : Nat) : (s.setT v).tur = s.tur := rfl
@[simp] theorem setT_srvCount (v : Nat) : (s.setT v).srvCount = s.srvCount := rfl

/-! ### setTrace -/

@[simp] theorem setTrace_cfg (v : List TraceEntry) : (s.setTrace v).cfg = s.cfg := rfl
@[simp] theorem setTrace_script (v : List TraceEntry) : (s.setTrace v).script = s.script := rfl
@[simp] theorem setTrace_draws (v : List TraceEntry) : (s.setTrace v).draws = s.draws := rfl
@[simp] theorem setTrace_cpuI (v : List TraceEntry) : (s.setTrace v).cpuI = s.cpuI := rfl
@[simp] theorem setTrace_fault (v : List TraceEntry) : (s.setTrace v).fault = s.fault := rfl
@[simp] theorem setTrace_res (v : List TraceEntry) : (s.setTrace v).res = s.res := rfl
@[simp] theorem setTrace_t (v : List TraceEntry) : (s.setTrace v).t = s.t := rfl
@[simp] theorem setTrace_trace (v : List TraceEntry) : (s.setTrace v).trace = v := rfl
@[simp] theorem setTrace_t0 (v : List TraceEntry) : (s.setTrace v).t0 = s.t0 := rfl
@[simp] theorem setTrace_clk (v : List TraceEntry) : (s.setTrace v).clk = s.clk := rfl
@[simp] theorem setTrace_t1 (v : List TraceEntry) : (s.setTrace v).t1 = s.t1 := rfl
@[simp] theorem setTrace_srv (v : List TraceEntry) : (s.setTrace v).srv = s.srv := rfl
@[simp] theorem setTrace_rng (v : List TraceEntry) : (s.setTrace v).rng = s.rng := rfl
@[simp] theorem setTrace_meas (v : List TraceEntry) : (s.setTrace v).meas = s.meas := rfl
@[simp] theorem setTrace_edge (v : List TraceEntry) : (s.setTrace v).edge = s.edge := rfl
@[simp] theorem setTrace_pins (v : List TraceEntry) : (s.setTrace v).pins = s.pins := rfl
@[simp] theorem setTrace_mbx (v : List TraceEntry) : (s.setTrace v).mbx = s.mbx := rfl
@[simp] theorem setTrace_dec (v : List TraceEntry) : (s.setTrace v).dec = s.dec := rfl
@[simp] theorem setTrace_tur (v : List TraceEntry) : (s.setTrace v).tur = s.tur := rfl
@[simp] theorem setTrace_srvCount (v : List TraceEntry) : (s.setTrace v).srvCount = s.srvCount := rfl

/-! ### setT0 -/

@[simp] theorem setT0_cfg (v : Timer0) : (s.setT0 v).cfg = s.cfg := rfl
@[simp] theorem setT0_script (v : Timer0) : (s.setT0 v).script = s.script := rfl
@[simp] theorem setT0_draws (v : Timer0) : (s.setT0 v).draws = s.draws := rfl
@[simp] theorem setT0_cpuI (v : Timer0) : (s.setT0 v).cpuI = s.cpuI := rfl
@[simp] theorem setT0_fault (v : Timer0) : (s.setT0 v).fault = s.fault := rfl
@[simp] theorem setT0_res (v : Timer0) : (s.setT0 v).res = s.res := rfl
@[simp] theorem setT0_t (v : Timer0) : (s.setT0 v).t = s.t := rfl
@[simp] theorem setT0_trace (v : Timer0) : (s.setT0 v).trace = s.trace := rfl
@[simp] theorem setT0_t0 (v : Timer0) : (s.setT0 v).t0 = v := rfl
@[simp] theorem setT0_clk (v : Timer0) : (s.setT0 v).clk = s.clk := rfl
@[simp] theorem setT0_t1 (v : Timer0) : (s.setT0 v).t1 = s.t1 := rfl
@[simp] theorem setT0_srv (v : Timer0) : (s.setT0 v).srv = s.srv := rfl
@[simp] theorem setT0_rng (v : Timer0) : (s.setT0 v).rng = s.rng := rfl
@[simp] theorem setT0_meas (v : Timer0) : (s.setT0 v).meas = s.meas := rfl
@[simp] theorem setT0_edge (v : Timer0) : (s.setT0 v).edge = s.edge := rfl
@[simp] theorem setT0_pins (v : Timer0) : (s.setT0 v).pins = s.pins := rfl
@[simp] theorem setT0_mbx (v : Timer0) : (s.setT0 v).mbx = s.mbx := rfl
@[simp] theorem setT0_dec (v : Timer0) : (s.setT0 v).dec = s.dec := rfl
@[simp] theorem setT0_tur (v : Timer0) : (s.setT0 v).tur = s.tur := rfl
@[simp] theorem setT0_srvCount (v : Timer0) : (s.setT0 v).srvCount = s.srvCount := rfl

/-! ### setClk -/

@[simp] theorem setClk_cfg (v : Clock) : (s.setClk v).cfg = s.cfg := rfl
@[simp] theorem setClk_script (v : Clock) : (s.setClk v).script = s.script := rfl
@[simp] theorem setClk_draws (v : Clock) : (s.setClk v).draws = s.draws := rfl
@[simp] theorem setClk_cpuI (v : Clock) : (s.setClk v).cpuI = s.cpuI := rfl
@[simp] theorem setClk_fault (v : Clock) : (s.setClk v).fault = s.fault := rfl
@[simp] theorem setClk_res (v : Clock) : (s.setClk v).res = s.res := rfl
@[simp] theorem setClk_t (v : Clock) : (s.setClk v).t = s.t := rfl
@[simp] theorem setClk_trace (v : Clock) : (s.setClk v).trace = s.trace := rfl
@[simp] theorem setClk_t0 (v : Clock) : (s.setClk v).t0 = s.t0 := rfl
@[simp] theorem setClk_clk (v : Clock) : (s.setClk v).clk = v := rfl
@[simp] theorem setClk_t1 (v : Clock) : (s.setClk v).t1 = s.t1 := rfl
@[simp] theorem setClk_srv (v : Clock) : (s.setClk v).srv = s.srv := rfl
@[simp] theorem setClk_rng (v : Clock) : (s.setClk v).rng = s.rng := rfl
@[simp] theorem setClk_meas (v : Clock) : (s.setClk v).meas = s.meas := rfl
@[simp] theorem setClk_edge (v : Clock) : (s.setClk v).edge = s.edge := rfl
@[simp] theorem setClk_pins (v : Clock) : (s.setClk v).pins = s.pins := rfl
@[simp] theorem setClk_mbx (v : Clock) : (s.setClk v).mbx = s.mbx := rfl
@[simp] theorem setClk_dec (v : Clock) : (s.setClk v).dec = s.dec := rfl
@[simp] theorem setClk_tur (v : Clock) : (s.setClk v).tur = s.tur := rfl
@[simp] theorem setClk_srvCount (v : Clock) : (s.setClk v).srvCount = s.srvCount := rfl

/-! ### setT1 -/

@[simp] theorem setT1_cfg (v : Timer1) : (s.setT1 v).cfg = s.cfg := rfl
@[simp] theorem setT1_script (v : Timer1) : (s.setT1 v).script = s.script := rfl
@[simp] theorem setT1_draws (v : Timer1) : (s.setT1 v).draws = s.draws := rfl
@[simp] theorem setT1_cpuI (v : Timer1) : (s.setT1 v).cpuI = s.cpuI := rfl
@[simp] theorem setT1_fault (v : Timer1) : (s.setT1 v).fault = s.fault := rfl
@[simp] theorem setT1_res (v : Timer1) : (s.setT1 v).res = s.res := rfl
@[simp] theorem setT1_t (v : Timer1) : (s.setT1 v).t = s.t := rfl
@[simp] theorem setT1_trace (v : Timer1) : (s.setT1 v).trace = s.trace := rfl
@[simp] theorem setT1_t0 (v : Timer1) : (s.setT1 v).t0 = s.t0 := rfl
@[simp] theorem setT1_clk (v : Timer1) : (s.setT1 v).clk = s.clk := rfl
@[simp] theorem setT1_t1 (v : Timer1) : (s.setT1 v).t1 = v := rfl
@[simp] theorem setT1_srv (v : Timer1) : (s.setT1 v).srv = s.srv := rfl
@[simp] theorem setT1_rng (v : Timer1) : (s.setT1 v).rng = s.rng := rfl
@[simp] theorem setT1_meas (v : Timer1) : (s.setT1 v).meas = s.meas := rfl
@[simp] theorem setT1_edge (v : Timer1) : (s.setT1 v).edge = s.edge := rfl
@[simp] theorem setT1_pins (v : Timer1) : (s.setT1 v).pins = s.pins := rfl
@[simp] theorem setT1_mbx (v : Timer1) : (s.setT1 v).mbx = s.mbx := rfl
@[simp] theorem setT1_dec (v : Timer1) : (s.setT1 v).dec = s.dec := rfl
@[simp] theorem setT1_tur (v : Timer1) : (s.setT1 v).tur = s.tur := rfl
@[simp] theorem setT1_srvCount (v : Timer1) : (s.setT1 v).srvCount = s.srvCount := rfl

/-! ### setSrv -/

@[simp] theorem setSrv_cfg (v : Servo) : (s.setSrv v).cfg = s.cfg := rfl
@[simp] theorem setSrv_script (v : Servo) : (s.setSrv v).script = s.script := rfl
@[simp] theorem setSrv_draws (v : Servo) : (s.setSrv v).draws = s.draws := rfl
@[simp] theorem setSrv_cpuI (v : Servo) : (s.setSrv v).cpuI = s.cpuI := rfl
@[simp] theorem setSrv_fault (v : Servo) : (s.setSrv v).fault = s.fault := rfl
@[simp] theorem setSrv_res (v : Servo) : (s.setSrv v).res = s.res := rfl
@[simp] theorem setSrv_t (v : Servo) : (s.setSrv v).t = s.t := rfl
@[simp] theorem setSrv_trace (v : Servo) : (s.setSrv v).trace = s.trace := rfl
@[simp] theorem setSrv_t0 (v : Servo) : (s.setSrv v).t0 = s.t0 := rfl
@[simp] theorem setSrv_clk (v : Servo) : (s.setSrv v).clk = s.clk := rfl
@[simp] theorem setSrv_t1 (v : Servo) : (s.setSrv v).t1 = s.t1 := rfl
@[simp] theorem setSrv_srv (v : Servo) : (s.setSrv v).srv = v := rfl
@[simp] theorem setSrv_rng (v : Servo) : (s.setSrv v).rng = s.rng := rfl
@[simp] theorem setSrv_meas (v : Servo) : (s.setSrv v).meas = s.meas := rfl
@[simp] theorem setSrv_edge (v : Servo) : (s.setSrv v).edge = s.edge := rfl
@[simp] theorem setSrv_pins (v : Servo) : (s.setSrv v).pins = s.pins := rfl
@[simp] theorem setSrv_mbx (v : Servo) : (s.setSrv v).mbx = s.mbx := rfl
@[simp] theorem setSrv_dec (v : Servo) : (s.setSrv v).dec = s.dec := rfl
@[simp] theorem setSrv_tur (v : Servo) : (s.setSrv v).tur = s.tur := rfl
@[simp] theorem setSrv_srvCount (v : Servo) : (s.setSrv v).srvCount = v.slots.length := rfl

/-! ### setRng -/

@[simp] theorem setRng_cfg (v : Ranging) : (s.setRng v).cfg = s.cfg := rfl
@[simp] theorem setRng_script (v : Ranging) : (s.setRng v).script = s.script := rfl
@[simp] theorem setRng_draws (v : Ranging) : (s.setRng v).draws = s.draws := rfl
@[simp] theorem setRng_cpuI (v : Ranging) : (s.setRng v).cpuI = s.cpuI := rfl
@[simp] theorem setRng_fault (v : Ranging) : (s.setRng v).fault = s.fault := rfl
@[simp] theorem setRng_res (v : Ranging) : (s.setRng v).res = s.res := rfl
@[simp] theorem setRng_t (v : Ranging) : (s.setRng v).t = s.t := rfl
@[simp] theorem setRng_trace (v : Ranging) : (s.setRng v).trace = s.trace := rfl
@[simp] theorem setRng_t0 (v : Ranging) : (s.setRng v).t0 = s.t0 := rfl
@[simp] theorem setRng_clk (v : Ranging) : (s.setRng v).clk = s.clk := rfl
@[simp] theorem setRng_t1 (v : Ranging) : (s.setRng v).t1 = s.t1 := rfl
@[simp] theorem setRng_srv (v : Ranging) : (s.setRng v).srv = s.srv := rfl
@[simp] theorem setRng_rng (v : Ranging) : (s.setRng v).rng = v := rfl
@[simp] theorem setRng_meas (v : Ranging) : (s.setRng v).meas = s.meas := rfl
@[simp] theorem setRng_edge (v : Ranging) : (s.setRng v).edge = s.edge := rfl
@[simp] theorem setRng_pins (v : Ranging) : (s.setRng v).pins = s.pins := rfl
@[simp] theorem setRng_mbx (v : Ranging) : (s.setRng v).mbx = s.mbx := rfl
@[simp] theorem setRng_dec (v : Ranging) : (s.setRng v).dec = s.dec := rfl
@[simp] theorem setRng_tur (v : Ranging) : (s.setRng v).tur = s.tur := rfl
@[simp] theorem setRng_srvCount (v : Ranging) : (s.setRng v).srvCount = s.srvCount := rfl

/-! ### setMeas -/

@[simp] theorem setMeas_cfg (v : Meas) : (s.setMeas v).cfg = s.cfg := rfl
@[simp] theorem setMeas_script (v : Meas) : (s.setMeas v).script = s.script := rfl
@[simp] theorem setMeas_draws (v : Meas) : (s.setMeas v).draws = s.draws := rfl
@[simp] theorem setMeas_cpuI (v : Meas) : (s.setMeas v).cpuI = s.cpuI := rfl
@[simp] theorem setMeas_fault (v : Meas) : (s.setMeas v).fault = s.fault := rfl
@[simp] theorem setMeas_res (v : Meas) : (s.setMeas v).res = s.res := rfl
@[simp] theorem setMeas_t (v : Meas) : (s.setMeas v).t = s.t := rfl
@[simp] theorem setMeas_trace (v : Meas) : (s.setMeas v).trace = s.trace := rfl
@[simp] theorem setMeas_t0 (v : Meas) : (s.setMeas v).t0 = s.t0 := rfl
@[simp] theorem setMeas_clk (v : Meas) : (s.setMeas v).clk = s.clk := rfl
@[simp] theorem setMeas_t1 (v : Meas) : (s.setMeas v).t1 = s.t1 := rfl
@[simp] theorem setMeas_srv (v : Meas) : (s.setMeas v).srv = s.srv := rfl
@[simp] theorem setMeas_rng (v : Meas) : (s.setMeas v).rng = s.rng := rfl
@[simp] theorem setMeas_meas (v : Meas) : (s.setMeas v).meas = v := rfl
@[simp] theorem setMeas_edge (v : Meas) : (s.setMeas v).edge = s.edge := rfl
@[simp] theorem setMeas_pins (v : Meas) : (s.setMeas v).pins = s.pins := rfl
@[simp] theorem setMeas_mbx (v : Meas) : (s.setMeas v).mbx = s.mbx := rfl
@[simp] theorem setMeas_dec (v : Meas) : (s.setMeas v).dec = s.dec := rfl
@[simp] theorem setMeas_tur (v : Meas) : (s.setMeas v).tur = s.tur := rfl
@[simp] theorem setMeas_srvCount (v : Meas) : (s.setMeas v).srvCount = s.srvCount := rfl

/-! ### setEdge -/

@[simp] theorem setEdge_cfg (v : EdgeUnit) : (s.setEdge v).cfg = s.cfg := rfl
@[simp] theorem setEdge_script (v : EdgeUnit) : (s.setEdge v).script = s.script := rfl
@[simp] theorem setEdge_draws (v : EdgeUnit) : (s.setEdge v).draws = s.draws := rfl
@[simp] theorem setEdge_cpuI (v : EdgeUnit) : (s.setEdge v).cpuI = s.cpuI := rfl
@[simp] theorem setEdge_fault (v : EdgeUnit) : (s.setEdge v).fault = s.fault := rfl
@[simp] theorem setEdge_res (v : EdgeUnit) : (s.setEdge v).res = s.res := rfl
@[simp] theorem setEdge_t (v : EdgeUnit) : (s.setEdge v).t = s.t := rfl
@[simp] theorem setEdge_trace (v : EdgeUnit) : (s.setEdge v).trace = s.trace := rfl
@[simp] theorem setEdge_t0 (v : EdgeUnit) : (s.setEdge v).t0 = s.t0 := rfl
@[simp] theorem setEdge_clk (v : EdgeUnit) : (s.setEdge v).clk = s.clk := rfl
@[simp] theorem setEdge_t1 (v : EdgeUnit) : (s.setEdge v).t1 = s.t1 := rfl
@[simp] theorem setEdge_srv (v : EdgeUnit) : (s.setEdge v).srv = s.srv := rfl
@[simp] theorem setEdge_rng (v : EdgeUnit) : (s.setEdge v).rng = s.rng := rfl
@[simp] theorem setEdge_meas (v : EdgeUnit) : (s.setEdge v).meas = s.meas := rfl
@[simp] theorem setEdge_edge (v : EdgeUnit) : (s.setEdge v).edge = v := rfl
@[simp] theorem setEdge_pins (v : EdgeUnit) : (s.setEdge v).pins = s.pins := rfl
@[simp] theorem setEdge_mbx (v : EdgeUnit) : (s.setEdge v).mbx = s.mbx := rfl
@[simp] theorem setEdge_dec (v : EdgeUnit) : (s.setEdge v).dec = s.dec := rfl
@[simp] theorem setEdge_tur (v : EdgeUnit) : (s.setEdge v).tur = s.tur := rfl
@[simp] theorem setEdge_srvCount (v : EdgeUnit) : (s.setEdge v).srvCount = s.srvCount := rfl

/-! ### setPins -/

@[simp] theorem setPins_cfg (v : Vector Pin 256) : (s.setPins v).cfg = s.cfg := rfl
@[simp] theorem setPins_script (v : Vector Pin 256) : (s.setPins v).script = s.script := rfl
@[simp] theorem setPins_draws (v : Vector Pin 256) : (s.setPins v).draws = s.draws := rfl
@[simp] theorem setPins_cpuI (v : Vector Pin 256) : (s.setPins v).cpuI = s.cpuI := rfl
@[simp] theorem setPins_fault (v : Vector Pin 256) : (s.setPins v).fault = s.fault := rfl
@[simp] theorem setPins_res (v : Vector Pin 256) : (s.setPins v).res = s.res := rfl
@[simp] theorem setPins_t (v : Vector Pin 256) : (s.setPins v).t = s.t := rfl
@[simp] theorem setPins_trace (v : Vector Pin 256) : (s.setPins v).trace = s.trace := rfl
@[simp] theorem setPins_t0 (v : Vector Pin 256) : (s.setPins v).t0 = s.t0 := rfl
@[simp] theorem setPins_clk (v : Vector Pin 256) : (s.setPins v).clk = s.clk := rfl
@[simp] theorem setPins_t1 (v : Vector Pin 256) : (s.setPins v).t1 = s.t1 := rfl
@[simp] theorem setPins_srv (v : Vector Pin 256) : (s.setPins v).srv = s.srv := rfl
@[simp] theorem setPins_rng (v : Vector Pin 256) : (s.setPins v).rng = s.rng := rfl
@[simp] theorem setPins_meas (v : Vector Pin 256) : (s.setPins v).meas = s.meas := rfl
@[simp] theorem setPins_edge (v : Vector Pin 256) : (s.setPins v).edge = s.edge := rfl
@[simp] theorem setPins_pins (v : Vector Pin 256) : (s.setPins v).pins = v := rfl
@[simp] theorem setPins_mbx (v : Vector Pin 256) : (s.setPins v).mbx = s.mbx := rfl
@[simp] theorem setPins_dec (v : Vector Pin 256) : (s.setPins v).dec = s.dec := rfl
@[simp] theorem setPins_tur (v : Vector Pin 256) : (s.setPins v).tur = s.tur := rfl
@[simp] theorem setPins_srvCount (v : Vector Pin 256) : (s.setPins v).srvCount = s.srvCount := rfl

/-! ### setMbx -/

@[simp] theorem setMbx_cfg (v : Option Command) : (s.setMbx v).cfg = s.cfg := rfl
@[simp] theorem setMbx_script (v : Option Command) : (s.setMbx v).script = s.script := rfl
@[simp] theorem setMbx_draws (v : Option Command) : (s.setMbx v).draws = s.draws := rfl
@[simp] theorem setMbx_cpuI (v : Option Command) : (s.setMbx v).cpuI = s.cpuI := rfl
@[simp] theorem setMbx_fault (v : Option Command) : (s.setMbx v).fault = s.fault := rfl
@[simp] theorem setMbx_res (v : Option Command) : (s.setMbx v).res = s.res := rfl
@[simp] theorem setMbx_t (v : Option Command) : (s.setMbx v).t = s.t := rfl
@[simp] theorem setMbx_trace (v : Option Command) : (s.setMbx v).trace = s.trace := rfl
@[simp] theorem setMbx_t0 (v : Option Command) : (s.setMbx v).t0 = s.t0 := rfl
@[simp] theorem setMbx_clk (v : Option Command) : (s.setMbx v).clk = s.clk := rfl
@[simp] theorem setMbx_t1 (v : Option Command) : (s.setMbx v).t1 = s.t1 := rfl
@[simp] theorem setMbx_srv (v : Option Command) : (s.setMbx v).srv = s.srv := rfl
@[simp] theorem setMbx_rng (v : Option Command) : (s.setMbx v).rng = s.rng := rfl
@[simp] theorem setMbx_meas (v : Option Command) : (s.setMbx v).meas = s.meas := rfl
@[simp] theorem setMbx_edge (v : Option Command) : (s.setMbx v).edge = s.edge := rfl
@[simp] theorem setMbx_pins (v : Option Command) : (s.setMbx v).pins = s.pins := rfl
@[simp] theorem setMbx_mbx (v : Option Command) : (s.setMbx v).mbx = v := rfl
@[simp] theorem setMbx_dec (v : Option Command) : (s.setMbx v).dec = s.dec := rfl
@[simp] theorem setMbx_tur (v : Option Command) : (s.setMbx v).tur = s.tur := rfl
@[simp] theorem setMbx_srvCount (v : Option Command) : (s.setMbx v).srvCount = s.srvCount := rfl

/-! ### setDec -/

@[simp] theorem setDec_cfg (v : Nat) : (s.setDec v).cfg = s.cfg := rfl
@[simp] theorem setDec_script (v : Nat) : (s.setDec v).script = s.script := rfl
@[simp] theorem setDec_draws (v : Nat) : (s.setDec v).draws = s.draws := rfl
@[simp] theorem setDec_cpuI (v : Nat) : (s.setDec v).cpuI = s.cpuI := rfl
@[simp] theorem setDec_fault (v : Nat) : (s.setDec v).fault = s.fault := rfl
@[simp] theorem setDec_res (v : Nat) : (s.setDec v).res = s.res := rfl
@[simp] theorem setDec_t (v : Nat) : (s.setDec v).t = s.t := rfl
@[simp] theorem setDec_trace (v : Nat) : (s.setDec v).trace = s.trace := rfl
@[simp] theorem setDec_t0 (v : Nat) : (s.setDec v).t0 = s.t0 := rfl
@[simp] theorem setDec_clk (v : Nat) : (s.setDec v).clk = s.clk := rfl
@[simp] theorem setDec_t1 (v : Nat) : (s.setDec v).t1 = s.t1 := rfl
@[simp] theorem setDec_srv (v : Nat) : (s.setDec v).srv = s.srv := rfl
@[simp] theorem setDec_rng (v : Nat) : (s.setDec v).rng = s.rng := rfl
@[simp] theorem setDec_meas (v : Nat) : (s.setDec v).meas = s.meas := rfl
@[simp] theorem setDec_edge (v : Nat) : (s.setDec v).edge = s.edge := rfl
@[simp] theorem setDec_pins (v : Nat) : (s.setDec v).pins = s.pins := rfl
@[simp] theorem setDec_mbx (v : Nat) : (s.setDec v).mbx = s.mbx := rfl
@[simp] theorem setDec_dec (v : Nat) : (s.setDec v).dec = v := rfl
@[simp] theorem setDec_tur (v : Nat) : (s.setDec v).tur = s.tur := rfl
@[simp] theorem setDec_srvCount (v : Nat) : (s.setDec v).srvCount = s.srvCount := rfl

/-! ### setTur -/

@[simp] theorem setTur_cfg (v : Option Turret) : (s.setTur v).cfg = s.cfg := rfl
@[simp] theorem setTur_script (v : Option Turret) : (s.setTur v).script = s.script := rfl
@[simp] theorem setTur_draws (v : Option Turret) : (s.setTur v).draws = s.draws := rfl
@[simp] theorem setTur_cpuI (v : Option Turret) : (s.setTur v).cpuI = s.cpuI := rfl
@[simp] theorem setTur_fault (v : Option Turret) : (s.setTur v).fault = s.fault := rfl
@[simp] theorem setTur_res (v : Option Turret) : (s.setTur v).res = s.res := rfl
@[simp] theorem setTur_t (v : Option Turret) : (s.setTur v).t = s.t := rfl
@[simp] theorem setTur_trace (v : Option Turret) : (s.setTur v).trace = s.trace := rfl
@[simp] theorem setTur_t0 (v : Option Turret) : (s.setTur v).t0 = s.t0 := rfl
@[simp] theorem setTur_clk (v : Option Turret) : (s.setTur v).clk = s.clk := rfl
@[simp] theorem setTur_t1 (v : Option Turret) : (s.setTur v).t1 = s.t1 := rfl
@[simp] theorem setTur_srv (v : Option Turret) : (s.setTur v).srv = s.srv := rfl
@[simp] theorem setTur_rng (v : Option Turret) : (s.setTur v).rng = s.rng := rfl
@[simp] theorem setTur_meas (v : Option Turret) : (s.setTur v).meas = s.meas := rfl
@[simp] theorem setTur_edge (v : Option Turret) : (s.setTur v).edge = s.edge := rfl
@[simp] theorem setTur_pins (v : Option Turret) : (s.setTur v).pins = s.pins := rfl
@[simp] theorem setTur_mbx (v : Option Turret) : (s.setTur v).mbx = s.mbx := rfl
@[simp] theorem setTur_dec (v : Option Turret) : (s.setTur v).dec = s.dec := rfl
@[simp] theorem setTur_tur (v : Option Turret) : (s.setTur v).tur = v := rfl
@[simp] theorem setTur_srvCount (v : Option Turret) : (s.setTur v).srvCount = s.srvCount := rfl

/-! ### Writing what is there changes nothing, and the last write wins -/

@[simp] theorem setScript_self : s.setScript s.script = s := rfl
@[simp] theorem setScript_setScript (v w : List Word) : (s.setScript v).setScript w = s.setScript w := rfl
@[simp] theorem setDraws_self : s.setDraws s.draws = s := rfl
@[simp] theorem setDraws_setDraws (v w : Nat) : (s.setDraws v).setDraws w = s.setDraws w := rfl
@[simp] theorem setCpuI_self : s.setCpuI s.cpuI = s := rfl
@[simp] theorem setCpuI_setCpuI (v w : Bool) : (s.setCpuI v).setCpuI w = s.setCpuI w := rfl
@[simp] theorem setFault_self : s.setFault s.fault = s := rfl
@[simp] theorem setFault_setFault (v w : Option Byte) : (s.setFault v).setFault w = s.setFault w := rfl
@[simp] theorem setRes_self : s.setRes s.res = s := rfl
@[simp] theorem setRes_setRes (v w : Res) : (s.setRes v).setRes w = s.setRes w := rfl
@[simp] theorem setT_self : s.setT s.t = s := rfl
@[simp] theorem setT_setT (v w : Nat) : (s.setT v).setT w = s.setT w := rfl
@[simp] theorem setTrace_self : s.setTrace s.trace = s := rfl
@[simp] theorem setTrace_setTrace (v w : List TraceEntry) : (s.setTrace v).setTrace w = s.setTrace w := rfl
@[simp] theorem setT0_self : s.setT0 s.t0 = s := rfl
@[simp] theorem setT0_setT0 (v w : Timer0) : (s.setT0 v).setT0 w = s.setT0 w := rfl
@[simp] theorem setClk_self : s.setClk s.clk = s := rfl
@[simp] theorem setClk_setClk (v w : Clock) : (s.setClk v).setClk w = s.setClk w := rfl
@[simp] theorem setT1_self : s.setT1 s.t1 = s := rfl
@[simp] theorem setT1_setT1 (v w : Timer1) : (s.setT1 v).setT1 w = s.setT1 w := rfl
@[simp] theorem setSrv_self : s.setSrv s.srv = s := rfl
@[simp] theorem setSrv_setSrv (v w : Servo) : (s.setSrv v).setSrv w = s.setSrv w := rfl
@[simp] theorem setRng_self : s.setRng s.rng = s := rfl
@[simp] theorem setRng_setRng (v w : Ranging) : (s.setRng v).setRng w = s.setRng w := rfl
@[simp] theorem setMeas_self : s.setMeas s.meas = s := rfl
@[simp] theorem setMeas_setMeas (v w : Meas) : (s.setMeas v).setMeas w = s.setMeas w := rfl
@[simp] theorem setEdge_self : s.setEdge s.edge = s := rfl
@[simp] theorem setEdge_setEdge (v w : EdgeUnit) : (s.setEdge v).setEdge w = s.setEdge w := rfl
@[simp] theorem setPins_self : s.setPins s.pins = s := rfl
@[simp] theorem setPins_setPins (v w : Vector Pin 256) : (s.setPins v).setPins w = s.setPins w := rfl
@[simp] theorem setMbx_self : s.setMbx s.mbx = s := rfl
@[simp] theorem setMbx_setMbx (v w : Option Command) : (s.setMbx v).setMbx w = s.setMbx w := rfl
@[simp] theorem setDec_self : s.setDec s.dec = s := rfl
@[simp] theorem setDec_setDec (v w : Nat) : (s.setDec v).setDec w = s.setDec w := rfl
@[simp] theorem setTur_self : s.setTur s.tur = s := rfl
@[simp] theorem setTur_setTur (v w : Option Turret) : (s.setTur v).setTur w = s.setTur w := rfl

end Sys2Proof.Machine.State
end

