-- ==== Sys2Proof/Laws/Background.lean ====
section
/-! SUPPORT. The pins, the handler bodies, the interrupts and the passing of time: for each shared
operation what it can do, said once. -/

namespace Sys2Proof.Machine

/-! ### Pins -/

section Pins
variable (s : State) (p q : Byte)

theorem getPin_setPin (v : Pin) : getPin (setPin p v s) q = if p = q then v else getPin s q := by
  simp only [getPin, setPin, State.setPins_pins, Vector.getElem_set]
  by_cases h : p = q
  · simp [h]
  · have : p.toNat ≠ q.toNat := fun e => h (BitVec.eq_of_toNat_eq e)
    simp [h, this]

@[simp] theorem getPin_setPin_same (v : Pin) : getPin (setPin p v s) p = v := by
  simp [getPin_setPin]

theorem getPin_setPin_other (v : Pin) (h : p ≠ q) : getPin (setPin p v s) q = getPin s q := by
  simp [getPin_setPin, h]

theorem getPin_congr {s s' : State} (h : s'.pins = s.pins) : getPin s' q = getPin s q := by
  simp [getPin, h]

theorem getPin_setPinLevel_dir (l : Level) : (getPin (setPinLevel p l s) q).dir = (getPin s q).dir := by
  simp only [setPinLevel, getPin_setPin]
  split <;> simp_all

end Pins

/-! ### BackgroundFrame is a preorder -/

theorem BackgroundFrame.refl (s : State) : BackgroundFrame s s := by
  constructor <;> simp

theorem BackgroundFrame.trans {s s' s'' : State} (h : BackgroundFrame s s') (k : BackgroundFrame s' s'') :
    BackgroundFrame s s'' where
  cfg := k.cfg.trans h.cfg
  script := k.script.trans h.script
  draws := k.draws.trans h.draws
  cpuI := k.cpuI.trans h.cpuI
  fault := k.fault.trans h.fault
  res := k.res.trans h.res
  t0run := k.t0run.trans h.t0run
  t0prescale := k.t0prescale.trans h.t0prescale
  t0cmp := k.t0cmp.trans h.t0cmp
  t0ie := k.t0ie.trans h.t0ie
  started := k.started.trans h.started
  t1prescale := k.t1prescale.trans h.t1prescale
  t1ie := k.t1ie.trans h.t1ie
  owned := k.owned.trans h.owned
  slots := k.slots.trans h.slots
  rngState := k.rngState.trans h.rngState
  driver := k.driver.trans h.driver
  meas := k.meas.trans h.meas
  mode := k.mode.trans h.mode
  dir := fun p => (k.dir p).trans (h.dir p)
  mbx := k.mbx.trans h.mbx
  dec := k.dec.trans h.dec
  tur := k.tur.trans h.tur

/-! ### What each piece of a handler writes -/

/-- All that `pin_write` can do: nothing, or, on an output pin whose level changes, the write and its entry
in `TRACE`. -/
theorem pinWrite_cases (p : Byte) (l : Level) (s : State) :
    (((getPin s p).dir = .input ∨ (getPin s p).level = l) ∧ pinWrite p l s = s) ∨
    ((getPin s p).dir = .output ∧ (getPin s p).level ≠ l ∧ pinWrite p l s =
      (setPinLevel p l s).setTrace (s.trace ++ [{ t := s.t, pin := p, level := l }])) := by
  unfold pinWrite
  split
  · exact .inl ⟨‹_›, rfl⟩
  · rename_i h
    refine .inr ⟨?_, fun e => h (.inr e), rfl⟩
    cases hd : (getPin s p).dir
    · exact absurd (.inl hd) h
    · rfl

/-- An input pin is not driven by the machine. -/
theorem pinWrite_of_input {p : Byte} (l : Level) {s : State} (h : (getPin s p).dir = .input) :
    pinWrite p l s = s := by
  rw [pinWrite, if_pos (.inl h)]

/-- `pin_write` writes one pin's level and `TRACE`. -/
theorem pinWrite_eq (p : Byte) (l : Level) (s : State) :
    ∃ pins trace, pinWrite p l s = (s.setPins pins).setTrace trace ∧
      ∀ q, (getPin (s.setPins pins) q).dir = (getPin s q).dir := by
  unfold pinWrite
  split
  · exact ⟨s.pins, s.trace, rfl, fun _ => rfl⟩
  · exact ⟨_, _, rfl, fun q => getPin_setPinLevel_dir s p q l⟩

theorem pinWrite_frame (p : Byte) (l : Level) (s : State) : BackgroundFrame s (pinWrite p l s) := by
  obtain ⟨pins, trace, h, hd⟩ := pinWrite_eq p l s
  rw [h]
  constructor
  case dir => exact hd
  all_goals rfl

/-- `tick()` writes the counter and the sub-counter, and keeps `CPU.I`. -/
theorem tickBody_eq (s : State) :
    tickBody s = s.setClk
      (if s.cfg.foldThreshold < (s.clk.part + 1).toNat
        then { s.clk with counter := s.clk.counter + (s.clk.part + 1).setWidth 32, part := 0 }
        else { s.clk with part := s.clk.part + 1 }) := by
  by_cases h : s.cfg.foldThreshold < (s.clk.part + 1).toNat
  · rw [if_pos h]; exact if_pos h
  · rw [if_neg h]; exact if_neg h

theorem tickBody_frame (s : State) : BackgroundFrame s (tickBody s) := by
  rw [tickBody_eq]
  constructor
  case started => simp only [State.setClk_clk]; split <;> rfl
  all_goals intros; rfl

theorem edgeBody_frame (s : State) : BackgroundFrame s (edgeBody s) := by
  unfold edgeBody
  split <;> constructor <;> intros <;> rfl

theorem setChannel_frame (ch : Byte) (s : State) : BackgroundFrame s (setChannel ch s) := by
  constructor <;> intros <;> rfl

theorem setT1Cnt_frame (v : Half) (s : State) : BackgroundFrame s (setT1Cnt v s) := by
  constructor <;> intros <;> rfl

theorem setT1Cmp_frame (v : Half) (s : State) : BackgroundFrame s (setT1Cmp v s) := by
  constructor <;> intros <;> rfl

theorem isrEndPulse_frame (s : State) : BackgroundFrame s (isrEndPulse s) := by
  unfold isrEndPulse
  split
  · exact setT1Cnt_frame _ _
  · split
    · split
      · exact pinWrite_frame _ _ _
      · exact .refl s
    · exact .refl s

theorem isrStartPulse_frame (sl : Slot) (s : State) : BackgroundFrame s (isrStartPulse sl s) := by
  unfold isrStartPulse
  dsimp only
  split
  · exact (setT1Cmp_frame _ _).trans (pinWrite_frame _ _ _)
  · exact setT1Cmp_frame _ _

theorem isrEndFrame_frame (s : State) : BackgroundFrame s (isrEndFrame s) := by
  unfold isrEndFrame
  refine BackgroundFrame.trans ?_ (setChannel_frame _ _)
  split <;> exact setT1Cmp_frame _ _

theorem isrServe_frame (s : State) : BackgroundFrame s (isrServe s) := by
  unfold isrServe
  split
  · split
    · exact isrStartPulse_frame _ _
    · exact .refl _
  · exact isrEndFrame_frame _

theorem isrBody_frame (s : State) : BackgroundFrame s (isrBody s) :=
  (isrEndPulse_frame s).trans ((setChannel_frame _ _).trans (isrServe_frame _))

theorem runBody_frame (src : Source) (s : State) : BackgroundFrame s (runBody src s) := by
  cases src
  · exact edgeBody_frame s
  · exact isrBody_frame s
  · exact tickBody_frame s

/-! ### The pending flags: set by the count steps and the edge unit alone, cleared by entry -/

/-- The pending flag of a source. -/
def pending (s : State) : Source → Bool
  | .tick => s.t0.pend
  | .servo => s.t1.pend
  | .edge => s.edge.pend

@[simp] theorem pinWrite_t0 (p l s) : (pinWrite p l s).t0 = s.t0 := by
  obtain ⟨_, _, h, _⟩ := pinWrite_eq p l s; simp [h]
@[simp] theorem pinWrite_t1 (p l s) : (pinWrite p l s).t1 = s.t1 := by
  obtain ⟨_, _, h, _⟩ := pinWrite_eq p l s; simp [h]
@[simp] theorem pinWrite_t (p l s) : (pinWrite p l s).t = s.t := by
  obtain ⟨_, _, h, _⟩ := pinWrite_eq p l s; simp [h]
@[simp] theorem pinWrite_clk (p l s) : (pinWrite p l s).clk = s.clk := by
  obtain ⟨_, _, h, _⟩ := pinWrite_eq p l s; simp [h]
@[simp] theorem pinWrite_srv (p l s) : (pinWrite p l s).srv = s.srv := by
  obtain ⟨_, _, h, _⟩ := pinWrite_eq p l s; simp [h]
@[simp] theorem pinWrite_rng (p l s) : (pinWrite p l s).rng = s.rng := by
  obtain ⟨_, _, h, _⟩ := pinWrite_eq p l s; simp [h]
@[simp] theorem pinWrite_edge (p l s) : (pinWrite p l s).edge = s.edge := by
  obtain ⟨_, _, h, _⟩ := pinWrite_eq p l s; simp [h]

/-- What the body of H_SERVO leaves alone beyond `BackgroundFrame`. -/
theorem isrBody_keeps (s : State) :
    (isrBody s).t0 = s.t0 ∧ (isrBody s).t1.pend = s.t1.pend ∧ (isrBody s).t = s.t ∧
      (isrBody s).clk = s.clk ∧ (isrBody s).rng = s.rng ∧ (isrBody s).edge = s.edge := by
  unfold isrBody isrServe isrEndPulse isrStartPulse isrEndFrame
  dsimp only
  repeat' split
  all_goals simp [setChannel, setT1Cmp, setT1Cnt]

/-- A body sets and clears no pending flag (R236). -/
@[simp] theorem pending_runBody (src other : Source) (s : State) :
    pending (runBody src s) other = pending s other := by
  cases src
  · cases other <;> simp only [runBody, edgeBody, pending] <;> split <;> simp
  · have h := isrBody_keeps s
    cases other <;> simp [runBody, pending, h]
  · cases other <;> simp [runBody, tickBody_eq, pending]

/-- Neither a body nor entry nor return lets time pass. -/
@[simp] theorem runBody_t (src : Source) (s : State) : (runBody src s).t = s.t := by
  cases src
  · simp only [runBody, edgeBody]; split <;> simp
  · exact (isrBody_keeps s).2.2.1
  · simp [runBody, tickBody_eq]

/-! ### Entry, return and one interrupt -/

theorem enter_pending (src other : Source) (s : State) :
    pending (enter src s) other = (pending s other && other != src) := by
  cases src <;> cases other <;> simp [enter, clearPending, pending]

@[simp] theorem enter_t (src : Source) (s : State) : (enter src s).t = s.t := by
  cases src <;> simp [enter, clearPending]

@[simp] theorem leave_cpuI (s : State) : (leave s).cpuI = true := rfl

/-- One interrupt clears the pending flag of its source and no other. -/
theorem pending_takeInterrupt (src other : Source) (s : State) :
    pending (takeInterrupt src s) other = (pending s other && other != src) := by
  have h : pending (takeInterrupt src s) other = pending (runBody src (enter src s)) other := by
    cases other <;> simp [takeInterrupt, leave, pending]
  rw [h, pending_runBody, enter_pending]

@[simp] theorem takeInterrupt_t (src : Source) (s : State) : (takeInterrupt src s).t = s.t := by
  simp [takeInterrupt, leave]

@[simp] theorem takeInterrupt_cpuI (src : Source) (s : State) : (takeInterrupt src s).cpuI = true := rfl

/-- One interrupt, taken with `CPU.I` = 1, stays within the frame: `CPU.I` is 1 again at its end. -/
theorem takeInterrupt_frame (src : Source) (s : State) (hI : s.cpuI = true) :
    BackgroundFrame s (takeInterrupt src s) := by
  have hb := runBody_frame src (enter src s)
  have he : BackgroundFrame (s.setCpuI false) (enter src s) := by
    cases src <;> constructor <;> intros <;> rfl
  have h := he.trans hb
  constructor
  case cpuI => simp [hI]
  case dir => intro p; exact h.dir p
  all_goals simp only [takeInterrupt, leave, State.setCpuI_cfg, State.setCpuI_script,
    State.setCpuI_draws, State.setCpuI_fault, State.setCpuI_res, State.setCpuI_t0, State.setCpuI_clk,
    State.setCpuI_t1, State.setCpuI_srv, State.setCpuI_rng, State.setCpuI_meas, State.setCpuI_edge,
    State.setCpuI_mbx, State.setCpuI_dec, State.setCpuI_tur]
  · exact h.cfg
  · exact h.script
  · exact h.draws
  · exact h.fault
  · exact h.res
  · exact h.t0run
  · exact h.t0prescale
  · exact h.t0cmp
  · exact h.t0ie
  · exact h.started
  · exact h.t1prescale
  · exact h.t1ie
  · exact h.owned
  · exact h.slots
  · exact h.rngState
  · exact h.driver
  · exact h.meas
  · exact h.mode
  · exact h.mbx
  · exact h.dec
  · exact h.tur

/-! ### DISPATCH() -/

/-- The source taken is requesting, and every source before it in `PRIO` is not. -/
theorem nextSource_requesting {s : State} {src : Source} (h : nextSource s = some src) :
    requesting s src = true := List.find?_some h

theorem prio_order_complete (p : Prio) (src : Source) : src ∈ p.order := by
  cases p <;> cases src <;> simp [Prio.order]

theorem nextSource_none {s : State} : nextSource s = none ↔ ∀ src, requesting s src = false := by
  simp only [nextSource, List.find?_eq_none, Bool.not_eq_true]
  exact ⟨fun h src => h src (prio_order_complete _ src), fun h src _ => h src⟩

/-- A property that every interrupt keeps is kept by `DISPATCH()`. -/
theorem dispatchTurns_keeps {P : State → Prop}
    (h : ∀ src s, s.cpuI = true → requesting s src = true → P s → P (takeInterrupt src s)) :
    ∀ (k : Nat) (s : State), P s → P (dispatchTurns k s)
  | 0, _, hs => hs
  | k + 1, s, hs => by
    unfold dispatchTurns
    split
    · rename_i hc
      split
      · rename_i src hn
        simp only [Bool.and_eq_true] at hc
        exact dispatchTurns_keeps h k _ (h src s hc.1 (nextSource_requesting hn) hs)
      · exact hs
    · exact hs

theorem dispatch_keeps {P : State → Prop}
    (h : ∀ src s, s.cpuI = true → requesting s src = true → P s → P (takeInterrupt src s))
    {s : State} (hs : P s) : P (dispatch s) := dispatchTurns_keeps h 3 s hs

/-- `DISPATCH()` stays within the frame. -/
theorem dispatch_frame (s : State) : BackgroundFrame s (dispatch s) :=
  dispatch_keeps (P := BackgroundFrame s)
    (fun src s' hI _ h => h.trans (takeInterrupt_frame src s' hI)) (.refl s)

@[simp] theorem dispatch_t (s : State) : (dispatch s).t = s.t :=
  dispatch_keeps (P := fun s' => s'.t = s.t) (fun _ _ _ _ h => by simpa using h) rfl

/-- In a quiet state `DISPATCH()` takes nothing. -/
theorem dispatch_of_quiet {s : State} (h : Quiet s) : dispatch s = s := by
  unfold dispatch dispatchTurns
  split
  · rename_i hc
    simp only [Bool.and_eq_true, Option.isNone_iff_eq_none] at hc
    rw [nextSource_none.mpr (h hc.1 hc.2)]
  · rfl

theorem dispatch_masked {s : State} (h : s.cpuI = false) : dispatch s = s :=
  dispatch_of_quiet fun hI => by simp [h] at hI

theorem requesting_pending {s : State} {src : Source} (h : requesting s src = true) :
    pending s src = true := by
  cases src <;> simp_all [requesting, pending]

/-- The number of sources whose pending flag is set: each turn of `DISPATCH()` lowers it. -/
def pendingCount (s : State) : Nat :=
  (if pending s .edge then 1 else 0) + (if pending s .servo then 1 else 0)
    + (if pending s .tick then 1 else 0)

theorem pendingCount_takeInterrupt {src : Source} {s : State} (h : requesting s src = true) :
    pendingCount (takeInterrupt src s) + 1 = pendingCount s := by
  have hp := requesting_pending h
  cases src <;> simp only [pendingCount, pending_takeInterrupt] <;> simp [hp] <;> omega

theorem dispatchTurns_quiet : ∀ (k : Nat) (s : State), pendingCount s ≤ k → Quiet (dispatchTurns k s)
  | 0, s, hk => by
    intro _ _ src
    by_contra hr
    have hp : pending s src = true :=
      requesting_pending (s := s) (by simpa [dispatchTurns] using hr)
    cases src <;> simp [pendingCount, hp] at hk
  | k + 1, s, hk => by
    unfold dispatchTurns
    split
    · split
      · rename_i src hn
        refine dispatchTurns_quiet k _ ?_
        have := pendingCount_takeInterrupt (nextSource_requesting hn)
        omega
      · rename_i hn
        exact fun _ _ => nextSource_none.mp hn
    · rename_i hc
      intro hI hF
      simp [hI, hF] at hc

/-- After `DISPATCH()` nothing more could be taken. -/
theorem dispatch_quiet (s : State) : Quiet (dispatch s) :=
  dispatchTurns_quiet 3 s (by unfold pendingCount; split <;> split <;> split <;> omega)

@[simp] theorem dispatch_dispatch (s : State) : dispatch (dispatch s) = dispatch s :=
  dispatch_of_quiet (dispatch_quiet s)

/-! ### Critical sections -/

/-- A critical section whose body keeps a quiet state quiet takes no interrupt. -/
theorem critical_of_quiet {α : Type} (body : State → α × State) (s : State)
    (h : Quiet (((body (s.setCpuI false)).2).setCpuI s.cpuI)) :
    critical body s = ((body (s.setCpuI false)).1, (body (s.setCpuI false)).2.setCpuI s.cpuI) := by
  simp only [critical, dispatch_of_quiet h]

@[simp] theorem setCpuI_self_after (s : State) (b : Bool) : (s.setCpuI b).setCpuI s.cpuI = s := rfl

/-- `now()` in a quiet state reads and changes nothing. -/
theorem now_of_quiet {s : State} (h : Quiet s) : now s = (nowValue s, s) := by
  have hq : Quiet ((s.setCpuI false).setCpuI s.cpuI) := h
  unfold now
  rw [critical_of_quiet _ _ hq]
  rfl

/-- `now()` returns the value before its `DISPATCH()`, and runs nothing but that. -/
theorem now_eq (s : State) : now s = (nowValue s, dispatch s) := rfl

/-! ### Time -/

theorem countT0_frame (s : State) : BackgroundFrame s (countT0 s) := by
  unfold countT0
  split <;> constructor <;> intros <;> rfl

theorem countT1_frame (s : State) : BackgroundFrame s (countT1 s) := by
  constructor <;> intros <;> rfl

@[simp] theorem countT0_t (s : State) : (countT0 s).t = s.t := by unfold countT0; split <;> rfl
@[simp] theorem countT1_t (s : State) : (countT1 s).t = s.t := rfl

theorem setT_frame (s : State) (v : Nat) : BackgroundFrame s (s.setT v) := by
  constructor <;> intros <;> rfl

theorem clockT0_frame (s : State) : BackgroundFrame s (clockT0 s) := by
  unfold clockT0
  split
  · exact countT0_frame s
  · exact .refl s

theorem clockT1_frame (s : State) : BackgroundFrame s (clockT1 s) := by
  unfold clockT1
  split
  · exact countT1_frame s
  · exact .refl s

@[simp] theorem clockT0_t (s : State) : (clockT0 s).t = s.t := by unfold clockT0; split <;> simp
@[simp] theorem clockT1_t (s : State) : (clockT1 s).t = s.t := by unfold clockT1; split <;> simp

theorem cycle_frame (s : State) : BackgroundFrame s (cycle s) :=
  (setT_frame s _).trans ((clockT0_frame _).trans ((clockT1_frame _).trans (dispatch_frame _)))

@[simp] theorem cycle_t (s : State) : (cycle s).t = s.t + 1 := by simp [cycle]

/-- Time passing stays within the frame. -/
theorem advance_frame : ∀ (n : Nat) (s : State), BackgroundFrame s (advance n s)
  | 0, s => .refl s
  | n + 1, s => (cycle_frame s).trans (advance_frame n (cycle s))

@[simp] theorem advance_t : ∀ (n : Nat) (s : State), (advance n s).t = s.t + n
  | 0, _ => rfl
  | n + 1, s => by simp [advance, advance_t n, Nat.add_comm, Nat.add_left_comm]

theorem advance_add (a b : Nat) (s : State) : advance (a + b) s = advance b (advance a s) := by
  induction a generalizing s with
  | zero => simp [advance]
  | succ a ih => rw [Nat.succ_add]; simp [advance, ih]

/-- A property that every interrupt, both count steps and the tick of time keep is kept by time passing. -/
theorem advance_keeps {P : State → Prop}
    (hi : ∀ src s, s.cpuI = true → requesting s src = true → P s → P (takeInterrupt src s))
    (ht : ∀ s, P s → P (s.setT (s.t + 1)))
    (h0 : ∀ s, s.t0.run = true → P s → P (countT0 s))
    (h1 : ∀ s, s.t1.ie = true → P s → P (countT1 s)) :
    ∀ (n : Nat) (s : State), P s → P (advance n s)
  | 0, _, hs => hs
  | n + 1, s, hs => by
    refine advance_keeps hi ht h0 h1 n (cycle s) ?_
    unfold cycle
    refine dispatch_keeps hi ?_
    have hA : P (clockT0 (s.setT (s.t + 1))) := by
      unfold clockT0
      split
      · rename_i hc
        simp only [Bool.and_eq_true] at hc
        exact h0 _ hc.1 (ht _ hs)
      · exact ht _ hs
    unfold clockT1
    split
    · rename_i hc
      simp only [Bool.and_eq_true] at hc
      exact h1 _ hc.1 hA
    · exact hA

end Sys2Proof.Machine
end

