-- ==== Sys2Proof/Laws/Encoding.lean ====
section
/-! SUPPORT. The fields of a word made from its five fields (30_encoding.md R80): reading one back gives what
was put there. -/

namespace Sys2Proof

variable (op h : Byte) (a b c : Half)

@[simp] theorem opField_packWord : opField (packWord op h a b c) = op := by
  unfold opField packWord
  ext i hi
  simp
  grind

@[simp] theorem hField_packWord : hField (packWord op h a b c) = h := by
  unfold hField packWord
  ext i hi
  simp
  grind

@[simp] theorem aField_packWord : aField (packWord op h a b c) = a := by
  unfold aField packWord
  ext i hi
  simp 
  grind

@[simp] theorem bField_packWord : bField (packWord op h a b c) = b := by
  unfold bField packWord
  ext i hi
  simp 
  grind

@[simp] theorem cField_packWord : cField (packWord op h a b c) = c := by
  unfold cField packWord
  ext i hi
  simp 
  grind

@[simp] theorem nField_packN32 (n : Quad) : nField (packN32 op n) = n := by
  unfold nField packN32 packWord
  ext i hi
  simp 
  grind

@[simp] theorem hiByte_append : hiByte (op ++ h) = op := by
  unfold hiByte
  ext i hi
  simp
  grind

@[simp] theorem loByte_append : loByte (op ++ h) = h := by
  unfold loByte
  ext i hi
  simp 
  grind

end Sys2Proof
end

