-- ==== Sys2Proof/Laws/PerInstr.lean ====
section
/-! SUPPORT. The statement families made per instruction: `EncodesOpcode`, that the word of an instruction
carries the opcode of its row. -/

namespace Sys2Proof.Laws

/-- The opcode of an instruction's row in the opcode map (30_encoding.md R83). -/
def opcodeOf : Instr → Byte
  | .clkStart => 0x01
  | .clkNow => 0x02
  | .clkTick => 0x03
  | .srvInit => 0x10
  | .srvNew _ => 0x11
  | .srvAttach _ => 0x12
  | .srvAttachl _ _ _ => 0x13
  | .srvWrite _ _ => 0x14
  | .srvWriteus _ _ => 0x15
  | .srvDetach _ => 0x16
  | .srvIsr => 0x17
  | .rngNew _ _ _ => 0x20
  | .rngBegin => 0x21
  | .rngPoll => 0x22
  | .rngEnd => 0x23
  | .rngMeasure _ => 0x24
  | .rngEdge => 0x25
  | .adv _ => 0x30
  | .pinSet _ _ => 0x31
  | .irqOff => 0x32
  | .irqOn => 0x33
  | .reset => 0x34
  | .cmdEdge => 0x40
  | .mbxPut _ _ _ => 0x41
  | .mbxFetch => 0x42
  | .dispCmd _ _ _ => 0x43
  | .turBuild _ _ _ _ _ _ => 0x44

/-- The word of the instruction carries, in bits 63:56, the opcode of its row (R80, R83). -/
def EncodesOpcode.Statement (i : Instr) : Prop := opField (encode i) = opcodeOf i

theorem EncodesOpcode.clkStart : Statement .clkStart := opField_packWord _ _ _ _ _

theorem EncodesOpcode.clkNow : Statement .clkNow := opField_packWord _ _ _ _ _

theorem EncodesOpcode.clkTick : Statement .clkTick := opField_packWord _ _ _ _ _

theorem EncodesOpcode.srvInit : Statement .srvInit := opField_packWord _ _ _ _ _

theorem EncodesOpcode.srvNew (pin : Byte) : Statement (.srvNew pin) := opField_packWord _ _ _ _ _

theorem EncodesOpcode.srvAttach (h : Byte) : Statement (.srvAttach h) := opField_packWord _ _ _ _ _

theorem EncodesOpcode.srvAttachl (h : Byte) (lo hi : Half) : Statement (.srvAttachl h lo hi) := opField_packWord _ _ _ _ _

theorem EncodesOpcode.srvWrite (h : Byte) (value : Half) : Statement (.srvWrite h value) := opField_packWord _ _ _ _ _

theorem EncodesOpcode.srvWriteus (h : Byte) (us : Half) : Statement (.srvWriteus h us) := opField_packWord _ _ _ _ _

theorem EncodesOpcode.srvDetach (h : Byte) : Statement (.srvDetach h) := opField_packWord _ _ _ _ _

theorem EncodesOpcode.srvIsr : Statement .srvIsr := opField_packWord _ _ _ _ _

theorem EncodesOpcode.rngNew (trig : Byte) (temp echo : Half) : Statement (.rngNew trig temp echo) := opField_packWord _ _ _ _ _

theorem EncodesOpcode.rngBegin : Statement .rngBegin := opField_packWord _ _ _ _ _

theorem EncodesOpcode.rngPoll : Statement .rngPoll := opField_packWord _ _ _ _ _

theorem EncodesOpcode.rngEnd : Statement .rngEnd := opField_packWord _ _ _ _ _

theorem EncodesOpcode.rngMeasure (n : Quad) : Statement (.rngMeasure n) := opField_packWord _ _ _ _ _

theorem EncodesOpcode.rngEdge : Statement .rngEdge := opField_packWord _ _ _ _ _

theorem EncodesOpcode.adv (n : Quad) : Statement (.adv n) := opField_packWord _ _ _ _ _

theorem EncodesOpcode.pinSet (pin : Byte) (level : Half) : Statement (.pinSet pin level) := opField_packWord _ _ _ _ _

theorem EncodesOpcode.irqOff : Statement .irqOff := opField_packWord _ _ _ _ _

theorem EncodesOpcode.irqOn : Statement .irqOn := opField_packWord _ _ _ _ _

theorem EncodesOpcode.reset : Statement .reset := opField_packWord _ _ _ _ _

theorem EncodesOpcode.cmdEdge : Statement .cmdEdge := opField_packWord _ _ _ _ _

theorem EncodesOpcode.mbxPut (address command rep : Half) : Statement (.mbxPut address command rep) := opField_packWord _ _ _ _ _

theorem EncodesOpcode.mbxFetch : Statement .mbxFetch := opField_packWord _ _ _ _ _

theorem EncodesOpcode.dispCmd (address command rep : Half) : Statement (.dispCmd address command rep) := opField_packWord _ _ _ _ _

theorem EncodesOpcode.turBuild (yaw pitch roll trig echo : Byte) (temp : Half) : Statement (.turBuild yaw pitch roll trig echo temp) := opField_packWord _ _ _ _ _

end Sys2Proof.Laws
end

