-- ==== Sys2Proof/Laws/Words.lean ====
section
/-! SUPPORT. The shared operations of the words: for each, once, what it can do when it answers a next
state, so that no later proof unfolds it. -/

namespace Sys2Proof.Machine

/-! ### Guards and sequencing -/

@[simp] theorem unlessFaulted_of_none {s : State} (h : s.fault = none) (op : State → Out) :
    unlessFaulted s op = op s := by simp [unlessFaulted, h]

theorem unlessFaulted_of_faulted {s : State} (h : s.fault.isSome = true) (op : State → Out) :
    unlessFaulted s op = .refused .faulted := by
  obtain ⟨c, hc⟩ := Option.isSome_iff_exists.mp h
  simp [unlessFaulted, hc]

/-- A word other than `reset` that answers a next state ran in a machine that is not faulted. -/
theorem unlessFaulted_next {s t : State} {op : State → Out} (h : unlessFaulted s op = .next t) :
    s.fault = none ∧ op s = .next t := by
  unfold unlessFaulted at h
  split at h
  · exact ⟨‹_›, h⟩
  · cases h

@[simp] theorem andThen_next' (s : State) (k : State → Out) : andThen (.next s) k = k s := rfl
@[simp] theorem andThen_fault (f : Fault) (k : State → Out) : andThen (.fault f) k = .fault f := rfl
@[simp] theorem andThen_refused (r : Refusal) (k : State → Out) : andThen (.refused r) k = .refused r := rfl

theorem andThen_eq_next {o : Out} {k : State → Out} {t : State} (h : andThen o k = .next t) :
    ∃ s, o = .next s ∧ k s = .next t := by
  unfold andThen at h
  split at h
  · exact ⟨_, rfl, h⟩
  · cases h
  · cases h

theorem withHandle_unknown {need : Bool} {h : Nat} {s : State} (op : Slot → Out)
    (hn : s.srv.slots[h]? = none) : withHandle need h s op = .refused .noSuchHandle := by
  simp [withHandle, hn]

theorem withHandle_wrong {need : Bool} {h : Nat} {s : State} {sl : Slot} (op : Slot → Out)
    (hs : s.srv.slots[h]? = some sl) (ha : sl.attached ≠ need) :
    withHandle need h s op = .refused .wrongTypestate := by
  simp [withHandle, hs, ha]

theorem withHandle_of_slot {need : Bool} {h : Nat} {s : State} {sl : Slot} (op : Slot → Out)
    (hs : s.srv.slots[h]? = some sl) (ha : sl.attached = need) : withHandle need h s op = op sl := by
  simp [withHandle, hs, ha]

theorem withHandle_next {need : Bool} {h : Nat} {s t : State} {op : Slot → Out}
    (e : withHandle need h s op = .next t) :
    ∃ sl, s.srv.slots[h]? = some sl ∧ sl.attached = need ∧ op sl = .next t := by
  unfold withHandle at e
  split at e
  · cases e
  · split at e
    · exact ⟨_, ‹_›, ‹_›, e⟩
    · cases e

/-! ### Quiet states -/

/-- Whether an interrupt could be taken depends on these five elements only. -/
theorem Quiet.congr {s s' : State} (h : Quiet s) (hI : s'.cpuI = s.cpuI) (hF : s'.fault = s.fault)
    (h0 : s'.t0 = s.t0) (h1 : s'.t1 = s.t1) (hE : s'.edge = s.edge) : Quiet s' := by
  intro hI' hF' src
  have hr := h (hI ▸ hI') (hF ▸ hF') src
  cases src <;> simpa [requesting, h0, h1, hE] using hr

/-- The same, where the edge unit was written with its pending flag cleared. -/
theorem Quiet.setEdgeMode {s : State} (h : Quiet s) (m : EdgeMode) : Quiet (setEdgeMode m s) := by
  intro hI hF src
  have hr := h hI hF src
  cases src
  · simp [requesting, Sys2Proof.Machine.setEdgeMode]
  · exact hr
  · exact hr

theorem quiet_masked {s : State} (h : s.cpuI = false) : Quiet s := by
  intro hI
  simp [h] at hI

/-- `advance` leaves a quiet state quiet: every cycle ends in `DISPATCH()`. -/
theorem advance_quiet : ∀ (n : Nat) {s : State}, Quiet s → Quiet (advance n s)
  | 0, _, h => h
  | n + 1, _, _ => advance_quiet n (dispatch_quiet _)

/-! ### Directly invoked bodies -/

theorem pinWrite_setCpuI (p : Byte) (l : Level) (b : Bool) (s : State) :
    pinWrite p l (s.setCpuI b) = (pinWrite p l s).setCpuI b := by
  unfold pinWrite
  have hp : getPin (s.setCpuI b) p = getPin s p := rfl
  rw [hp]
  split <;> rfl

theorem isrEndPulse_setCpuI (b : Bool) (s : State) :
    isrEndPulse (s.setCpuI b) = (isrEndPulse s).setCpuI b := by
  unfold isrEndPulse
  have hc : channelSlot (s.setCpuI b) = channelSlot s := rfl
  rw [hc, State.setCpuI_srv]
  split
  · rfl
  · split
    · split
      · exact pinWrite_setCpuI _ _ _ _
      · rfl
    · rfl

theorem isrStartPulse_setCpuI (sl : Slot) (b : Bool) (s : State) :
    isrStartPulse sl (s.setCpuI b) = (isrStartPulse sl s).setCpuI b := by
  unfold isrStartPulse
  dsimp only
  split
  · exact pinWrite_setCpuI sl.pin .high b (setT1Cmp (s.t1.cnt + sl.ticks) s)
  · rfl

theorem isrEndFrame_setCpuI (b : Bool) (s : State) :
    isrEndFrame (s.setCpuI b) = (isrEndFrame s).setCpuI b := by
  by_cases h : s.t1.cnt.toNat + s.cfg.guardTicks < s.cfg.refreshTicks
  · have hb : (s.setCpuI b).t1.cnt.toNat + (s.setCpuI b).cfg.guardTicks <
      (s.setCpuI b).cfg.refreshTicks := h
    rw [isrEndFrame, isrEndFrame, if_pos h, if_pos hb]
    rfl
  · have hb : ¬ (s.setCpuI b).t1.cnt.toNat + (s.setCpuI b).cfg.guardTicks <
      (s.setCpuI b).cfg.refreshTicks := h
    rw [isrEndFrame, isrEndFrame, if_neg h, if_neg hb]
    rfl

theorem isrServe_setCpuI (b : Bool) (s : State) : isrServe (s.setCpuI b) = (isrServe s).setCpuI b := by
  unfold isrServe
  have hc : channelSlot (s.setCpuI b) = channelSlot s := rfl
  simp only [State.setCpuI_srv, State.setCpuI_srvCount, hc]
  split
  · split
    · exact isrStartPulse_setCpuI _ _ _
    · rfl
  · exact isrEndFrame_setCpuI _ _

/-- A body neither reads nor writes `CPU.I`. -/
theorem runBody_setCpuI (src : Source) (b : Bool) (s : State) :
    runBody src (s.setCpuI b) = (runBody src s).setCpuI b := by
  cases src
  · simp only [runBody, edgeBody, State.setCpuI_rng]
    split <;> rfl
  · show isrBody (s.setCpuI b) = (isrBody s).setCpuI b
    unfold isrBody
    rw [isrEndPulse_setCpuI]
    exact isrServe_setCpuI b (setChannel ((isrEndPulse s).srv.channel + 1) (isrEndPulse s))
  · simp only [runBody, tickBody_eq, State.setCpuI_cfg, State.setCpuI_clk]
    rfl

/-- A directly invoked body does what the body does: saving, clearing and restoring `CPU.I` is not seen. -/
theorem directBody_runBody (src : Source) (s : State) : directBody (runBody src) s = runBody src s := by
  unfold directBody
  rw [runBody_setCpuI]
  have h := (runBody_frame src s).cpuI
  show (runBody src s).setCpuI s.cpuI = _
  rw [← h]
  rfl

/-! ### The multiplexer -/

/-- A slot's width is stored, then `DISPATCH()` runs. -/
theorem storeTicks_eq (h : Nat) (sl : Slot) (v : Nat) (s : State) :
    storeTicks h sl v s =
      (dispatch (setSlot h { sl with ticks := BitVec.ofNat 16 v } s)).setRes .unit := rfl

theorem setSlot_quiet {s : State} (h : Quiet s) (k : Nat) (sl : Slot) : Quiet (setSlot k sl s) :=
  h.congr rfl rfl rfl rfl rfl

theorem storeTicks_of_quiet (h : Nat) (sl : Slot) (v : Nat) {s : State} (hq : Quiet s) :
    storeTicks h sl v s = (setSlot h { sl with ticks := BitVec.ofNat 16 v } s).setRes .unit := by
  rw [storeTicks_eq, dispatch_of_quiet (setSlot_quiet hq _ _)]

/-- Beside `RES` and the slot's width, only what goes on underneath changes. -/
theorem storeTicks_frame (h : Nat) (sl : Slot) (v : Nat) (s : State) :
    BackgroundFrame ((setSlot h { sl with ticks := BitVec.ofNat 16 v } s).setRes .unit)
      (storeTicks h sl v s) := by
  have f := dispatch_frame (setSlot h { sl with ticks := BitVec.ofNat 16 v } s)
  rw [storeTicks_eq]
  exact { f with res := rfl, dir := f.dir }

theorem writeAngle_next {h value : Nat} {s t : State} (e : writeAngle h value s = .next t) :
    ∃ sl, s.srv.slots[h]? = some sl ∧ sl.attached = true ∧
      t = storeTicks h sl (widthTicks s.cfg sl (angleToUs sl value)) s := by
  obtain ⟨sl, hs, ha, ht⟩ := withHandle_next e
  exact ⟨sl, hs, ha, by simpa using ht.symm⟩

theorem writeWidth_next {h us : Nat} {s t : State} (e : writeWidth h us s = .next t) :
    ∃ sl, s.srv.slots[h]? = some sl ∧ sl.attached = true ∧
      t = storeTicks h sl (widthTicks s.cfg sl us) s := by
  obtain ⟨sl, hs, ha, ht⟩ := withHandle_next e
  exact ⟨sl, hs, ha, by simpa using ht.symm⟩

/-- `new(pin)`: the two errors, or a slot more. -/
theorem registerServo_cases (pin : Byte) (s : State) :
    (s.srv.owned = false ∧ registerServo pin s = s.setRes (.err errNotInitialized)) ∨
    (s.srv.owned = true ∧ s.srvCount = maxServos ∧
      registerServo pin s = s.setRes (.err errTooManyServos)) ∨
    (s.srv.owned = true ∧ s.srvCount ≠ maxServos ∧ registerServo pin s =
      (s.setSrv { s.srv with slots := s.srv.slots ++ [newSlot s.cfg pin] }).setRes (.handle s.srvCount)) := by
  unfold registerServo
  split
  · exact .inl ⟨‹_›, rfl⟩
  · have ho : s.srv.owned = true := by simpa using ‹¬ s.srv.owned = false›
    split
    · exact .inr (.inl ⟨ho, ‹_›, rfl⟩)
    · exact .inr (.inr ⟨ho, ‹_›, rfl⟩)

/-- What an attach writes: its slot, its pin's direction, T1 when it arms, `RES`. -/
theorem attachSlot_eq (h : Nat) (sl : Slot) (lo hi : Half) (s : State) :
    attachSlot h sl lo hi s =
      (((s.setSrv { s.srv with
          slots := s.srv.slots.set h { sl with minUs := lo, maxUs := hi, attached := true } }).setPins
        (s.pins.set sl.pin.toNat { getPin s sl.pin with dir := .output } sl.pin.isLt)).setT1
        (if active s then s.t1 else { s.t1 with
          prescale := s.cfg.srvPrescale, cnt := 0, pend := false, ie := true })).setRes .unit := by
  unfold attachSlot
  dsimp only
  split <;> rfl

/-- What a detach writes: its slot, T1's enable when no slot stays attached, `RES`. -/
theorem detachSlot_eq (h : Nat) (sl : Slot) (s : State) :
    detachSlot h sl s =
      ((s.setSrv { s.srv with slots := s.srv.slots.set h { sl with attached := false } }).setT1
        (if (s.srv.slots.set h { sl with attached := false }).any (·.attached) then s.t1
          else { s.t1 with ie := false })).setRes .unit := by
  unfold detachSlot
  have ha : active (setSlot h { sl with attached := false } s) =
    (s.srv.slots.set h { sl with attached := false }).any (·.attached) := rfl
  dsimp only
  rw [ha]
  split <;> rfl

/-! ### The ranging unit -/

theorem setPinDir_eq (p : Byte) (d : PinDir) (s : State) :
    ∃ pins, setPinDir p d s = s.setPins pins ∧
      ∀ q, getPin (s.setPins pins) q = if p = q then { getPin s q with dir := d } else getPin s q := by
  refine ⟨_, rfl, fun q => ?_⟩
  have h := getPin_setPin s p q { getPin s p with dir := d }
  refine h.trans ?_
  split
  · rename_i e; rw [e]
  · rfl

/-- `rng.new` writes the driver, the two directions and `RES`. -/
theorem constructDriver_eq (trig : Byte) (temp : Half) (echo : Byte) (s : State) :
    ∃ pins, constructDriver trig temp echo s =
        ((s.setRng { s.rng with cfg := some { temp := temp, trig := trig, echo := echo } }).setPins
          pins).setRes .unit ∧
      ∀ q, getPin (s.setPins pins) q =
        { dir := if q = echo then .input else if q = trig then .output else (getPin s q).dir
          level := (getPin s q).level } := by
  unfold constructDriver
  generalize hs1 : s.setRng { s.rng with cfg := some { temp := temp, trig := trig, echo := echo } } = s1
  obtain ⟨p1, e1, h1⟩ := setPinDir_eq trig .output s1
  obtain ⟨p2, e2, h2⟩ := setPinDir_eq echo .input (s1.setPins p1)
  refine ⟨p2, ?_, fun q => ?_⟩
  · dsimp only
    rw [e1, e2]
    rfl
  · have hq : getPin (s.setPins p2) q = getPin ((s1.setPins p1).setPins p2) q := rfl
    have hq' : getPin s1 q = getPin s q := by rw [← hs1]; rfl
    rw [hq, h2, h1, hq']
    by_cases he : echo = q <;> by_cases ht : trig = q
    · simp [he, ht]
    · simp [he, ht]
    · have he' : q ≠ echo := fun e => he e.symm
      simp [he, ht, he']
    · have he' : q ≠ echo := fun e => he e.symm
      have ht' : q ≠ trig := fun e => ht e.symm
      simp [he, ht, he', ht']

/-- When `rng.new` completes: its four checks passed. -/
theorem newDriver_next {trig : Byte} {temp : Half} {echo : Byte} {s t : State}
    (e : newDriver trig temp echo s = .next t) :
    driverRefusal trig temp echo s = none ∧ t = constructDriver trig temp echo s := by
  unfold newDriver at e
  split at e
  · cases e
  · exact ⟨‹_›, by simpa using e.symm⟩

theorem driverRefusal_none {trig : Byte} {temp : Half} {echo : Byte} {s : State}
    (h : driverRefusal trig temp echo s = none) :
    s.rng.cfg = none ∧ trig ≠ echo ∧ 0 < s.cfg.speedOfSound (temperature temp) := by
  unfold driverRefusal at h
  split at h
  · cases h
  · split at h
    · cases h
    · split at h
      · cases h
      · simp_all

/-- `rng.begin` when it completes: the driver exists, and the machine starts a measurement, or is faulted
when one is in flight; the cells were read in a critical section. -/
theorem rngBegin_next {s t : State} (e : rngBegin s = .next t) :
    ∃ d, s.rng.cfg = some d ∧
      ((s.rng.state = .idle ∧ t = beginMeasure d (dispatch s)) ∨
       (s.rng.state ≠ .idle ∧ t = raiseFault faultRangingBusy (dispatch s))) := by
  unfold rngBegin at e
  split at e
  · cases e
  · rename_i d hd
    refine ⟨d, hd, ?_⟩
    have hc : critical (fun s => (s.rng.state, s)) s = (s.rng.state, dispatch s) := rfl
    simp only [hc] at e
    split at e
    · exact .inl ⟨‹_›, by simpa using e.symm⟩
    · exact .inr ⟨‹_›, by simpa using e.symm⟩

/-- Driving the trigger pulse stays within the frame and takes the settle and the trigger time. -/
theorem triggerPulse_frame (d : Driver) (s : State) : BackgroundFrame s (triggerPulse d s) := by
  unfold triggerPulse
  exact (pinWrite_frame _ _ _).trans ((advance_frame _ _).trans ((pinWrite_frame _ _ _).trans
    ((advance_frame _ _).trans (pinWrite_frame _ _ _))))

theorem triggerPulse_t (d : Driver) (s : State) :
    (triggerPulse d s).t = s.t + settleUs * s.cfg.cycPerUs + trigUs * s.cfg.cycPerUs := by
  have hc : (advance (settleUs * s.cfg.cycPerUs) (pinWrite d.trig .low s)).cfg = s.cfg :=
    ((pinWrite_frame _ _ _).trans (advance_frame _ _)).cfg
  simp [triggerPulse, hc]

theorem clearTimestamps_eq (s : State) :
    clearTimestamps s = dispatch (s.setRng { s.rng with trigTime := none, echoTime := none }) := rfl

theorem goTriggered_eq (s : State) :
    goTriggered s = dispatch (s.setRng { s.rng with state := .triggered }) := rfl

theorem enterLoop_eq (s : State) : enterLoop s = (dispatch s).setMeas (.inLoop (nowValue s)) := rfl

/-- What a measurement's begin leaves, beside what goes on underneath: Triggered, armed for rising edges,
in the loop from the tick that `now()` gives there. -/
theorem beginMeasure_frame (d : Driver) (s : State) :
    ∃ start, (beginMeasure d s).meas = .inLoop start ∧
      BackgroundFrame (((s.setRng { s.rng with state := .triggered }).setEdge
        { mode := .rising, pend := false }).setMeas (.inLoop start)) (beginMeasure d s) := by
  have f : BackgroundFrame (s.setRng { s.rng with trigTime := none, echoTime := none })
      (triggerPulse d (clearTimestamps s)) := by
    rw [clearTimestamps_eq]
    exact (dispatch_frame _).trans (triggerPulse_frame d _)
  unfold beginMeasure
  generalize triggerPulse d (clearTimestamps s) = s2 at f
  rw [goTriggered_eq]
  have g := dispatch_frame (s2.setRng { s2.rng with state := .triggered })
  generalize dispatch (s2.setRng { s2.rng with state := .triggered }) = s3 at g
  rw [enterLoop_eq]
  have k := dispatch_frame (setEdgeMode .rising s3)
  generalize dispatch (setEdgeMode .rising s3) = s4 at k
  generalize nowValue (setEdgeMode .rising s3) = start
  exact ⟨start, rfl,
    { cfg := k.cfg.trans (g.cfg.trans f.cfg)
      script := k.script.trans (g.script.trans f.script)
      draws := k.draws.trans (g.draws.trans f.draws)
      cpuI := k.cpuI.trans (g.cpuI.trans f.cpuI)
      fault := k.fault.trans (g.fault.trans f.fault)
      res := k.res.trans (g.res.trans f.res)
      t0run := k.t0run.trans (g.t0run.trans f.t0run)
      t0prescale := k.t0prescale.trans (g.t0prescale.trans f.t0prescale)
      t0cmp := k.t0cmp.trans (g.t0cmp.trans f.t0cmp)
      t0ie := k.t0ie.trans (g.t0ie.trans f.t0ie)
      started := k.started.trans (g.started.trans f.started)
      t1prescale := k.t1prescale.trans (g.t1prescale.trans f.t1prescale)
      t1ie := k.t1ie.trans (g.t1ie.trans f.t1ie)
      owned := k.owned.trans (g.owned.trans f.owned)
      slots := k.slots.trans (g.slots.trans f.slots)
      rngState := k.rngState.trans g.rngState
      driver := k.driver.trans (g.driver.trans f.driver)
      meas := rfl
      mode := k.mode
      dir := fun p => (k.dir p).trans ((g.dir p).trans (f.dir p))
      mbx := k.mbx.trans (g.mbx.trans f.mbx)
      dec := k.dec.trans (g.dec.trans f.dec)
      tur := k.tur.trans (g.tur.trans f.tur) }⟩

/-- `rng.poll` when it completes: the main context is in the loop, and one pass runs. -/
theorem rngPoll_next {s t : State} (e : rngPoll s = .next t) :
    ∃ start, s.meas = .inLoop start ∧ t = pollPass start s := by
  unfold rngPoll at e
  split at e
  · exact ⟨_, ‹_›, by simpa using e.symm⟩
  · cases e
  · cases e

/-- The critical section of `rng.poll` either re-arms for the falling edge or changes nothing. -/
theorem rearmIfDue_cases (s : State) :
    (rearmIfDue s).1 = (s.rng.trigTime, s.rng.echoTime) ∧
    ((s.rng.state = .triggered ∧ s.rng.trigTime.isSome = true ∧ (rearmIfDue s).2 =
        (s.setEdge { mode := .falling, pend := false }).setRng { s.rng with state := .measuring }) ∨
     (¬(s.rng.state = .triggered ∧ s.rng.trigTime.isSome = true) ∧ (rearmIfDue s).2 = s)) := by
  unfold rearmIfDue
  dsimp only
  split
  · rename_i h
    exact ⟨rfl, .inl ⟨h.1, h.2, rfl⟩⟩
  · rename_i h
    exact ⟨rfl, .inr ⟨h, rfl⟩⟩

/-- `rng.end` when it completes: the loop had decided to exit. -/
theorem rngEnd_next {s t : State} (e : rngEnd s = .next t) : s.meas = .exiting ∧ t = endMeasure s := by
  unfold rngEnd at e
  split at e
  · exact ⟨‹_›, by simpa using e.symm⟩
  · cases e
  · cases e

/-- What `rng.end` leaves: the machine after a `DISPATCH()` with the unit disarmed and Idle, out of the
measurement, and the result of the two timestamps. -/
theorem endMeasure_eq (s : State) :
    endMeasure s = ((dispatch ((setEdgeMode .off s).setRng { s.rng with state := .idle })).setMeas
      .noMeas).setRes (rangingResult s.rng.trigTime s.rng.echoTime) := rfl

/-- A property kept by each part of the loop of `rng.measure` is kept by the loop. -/
theorem measureLoop_keeps {P : State → Prop}
    (hp : ∀ s t, P s → rngPoll s = .next t → P t) (hd : ∀ s, P s → P (dispatch s))
    (ha : ∀ n s, P s → P (advance n s)) (he : ∀ s t, P s → rngEnd s = .next t → P t) :
    ∀ (k n : Nat) (s t : State), P s → measureLoop k n s = .next t → P t
  | 0, _, _, _, _, e => by cases e
  | k + 1, n, s, t, hs, e => by
    unfold measureLoop at e
    split at e
    · rename_i q hq
      have hP : P (dispatch q) := hd _ (hp _ _ hs hq)
      dsimp only at e
      split at e
      · exact he _ _ hP e
      · split at e
        · cases e
        · exact measureLoop_keeps hp hd ha he k n _ t (ha _ _ hP) e
    · cases e
    · cases e

/-- `rng.measure` when it completes: its begin raised the fault, or the loop ran to its end. -/
theorem measure_next {n : Nat} {s t : State} (e : measure n s = .next t) :
    n ≠ 0 ∧ ∃ b, rngBegin s = .next b ∧
      ((b.fault.isSome = true ∧ t = b) ∨
       (b.fault = none ∧ measureLoop measureFuel n (dispatch b) = .next t)) := by
  unfold measure at e
  split at e
  · cases e
  · rename_i hn
    obtain ⟨b, hb, e⟩ := andThen_eq_next e
    refine ⟨hn, b, hb, ?_⟩
    split at e
    · exact .inl ⟨‹_›, by simpa using e.symm⟩
    · exact .inr ⟨by simpa using ‹¬ b.fault.isSome = true›, e⟩

/-! ### The environment -/

/-- `EDGE_DETECT` writes the pending flag of the edge unit and nothing else. -/
theorem edgeDetect_eq (old new : Level) (s : State) :
    edgeDetect old new s =
      s.setEdge { s.edge with pend := s.edge.pend || edgeMatches s.edge.mode old new } := by
  unfold edgeDetect
  split
  · rename_i h; simp [h]
  · rename_i h
    have h' : edgeMatches s.edge.mode old new = false := by simpa using h
    simp only [h', Bool.or_false]
    rfl

/-- Driving an input pin writes its level and, on the echo pin, may set the edge unit's pending flag. -/
theorem drivePin_eq (p : Byte) (l : Level) (s : State) :
    drivePin p l s = (setPinLevel p l s).setEdge { s.edge with
      pend := s.edge.pend || (isEchoPin p s && edgeMatches s.edge.mode (getPin s p).level l) } := by
  have he : isEchoPin p (setPinLevel p l s) = isEchoPin p s := rfl
  unfold drivePin
  dsimp only
  rw [he]
  split
  · rename_i h
    rw [edgeDetect_eq, h, Bool.true_and]
    rfl
  · rename_i h
    have h' : isEchoPin p s = false := by simpa using h
    rw [h', Bool.false_and, Bool.or_false]
    rfl

/-! ### The host side -/

/-- `commandOperands` reads exactly the operands in range. -/
theorem commandOperands_some {a c r : Half} {m : Command} (h : commandOperands a c r = some m) :
    fitsByte a = true ∧ fitsByte c = true ∧ isFlag r = true ∧
      m = { address := a.setWidth 8, command := c.setWidth 8, rep := r.toNat == 1 } := by
  unfold commandOperands byteOperand flagOperand at h
  split at h
  · rename_i ha hc hr
    simp only [Option.ite_none_right_eq_some, Option.some.injEq] at ha hc hr h
    obtain ⟨ha, rfl⟩ := ha
    obtain ⟨hc, rfl⟩ := hc
    obtain ⟨hr, rfl⟩ := hr
    exact ⟨ha, hc, hr, h.symm⟩
  · cases h

theorem movePitch_next {new : Nat} {tu : Turret} {s t : State} (e : movePitch new tu s = .next t) :
    ∃ s1, writeAngle tu.pit new (s.setTur (some { tu with pitch := new })) = .next s1 ∧
      t = delayMs s1.cfg.pitchSettleMs s1 := by
  obtain ⟨s1, h1, h2⟩ := andThen_eq_next e
  exact ⟨s1, h1, by simpa using h2.symm⟩

theorem pulseServo_next {h us ms : Nat} {s t : State} (e : pulseServo h us ms s = .next t) :
    ∃ s1, writeWidth h us s = .next s1 ∧ writeWidth h defaultPulseUs (delayMs ms s1) = .next t :=
  andThen_eq_next e

/-- What dispatching a command can do: nothing, a pitch move within the bounds, or a pulse on the yaw or
the roll servo. -/
theorem dispatchCommand_next {code : Byte} {rep : Bool} {tu : Turret} {s t : State}
    (e : dispatchCommand code rep tu s = .next t) :
    t = s ∨
    (∃ new, movePitch new tu s = .next t ∧
      (new = max s.cfg.pitchMin (tu.pitch - s.cfg.pitchStep) ∧ s.cfg.pitchMin < tu.pitch ∨
       new = min s.cfg.pitchMax (tu.pitch + s.cfg.pitchStep) ∧ tu.pitch < s.cfg.pitchMax)) ∨
    ∃ h us ms, (h = tu.yaw ∨ h = tu.roll) ∧ pulseServo h us ms s = .next t := by
  unfold dispatchCommand dispatchUp dispatchDown at e
  split at e
  · split at e
    · exact .inr (.inl ⟨_, e, .inl ⟨rfl, ‹_›⟩⟩)
    · exact .inl (by simpa using e.symm)
  split at e
  · split at e
    · exact .inr (.inl ⟨_, e, .inr ⟨rfl, ‹_›⟩⟩)
    · exact .inl (by simpa using e.symm)
  split at e
  · exact .inr (.inr ⟨_, _, _, .inl rfl, e⟩)
  split at e
  · exact .inr (.inr ⟨_, _, _, .inl rfl, e⟩)
  split at e
  · split at e
    · exact .inl (by simpa using e.symm)
    · exact .inr (.inr ⟨_, _, _, .inr rfl, e⟩)
  split at e
  · split at e
    · exact .inl (by simpa using e.symm)
    · exact .inr (.inr ⟨_, _, _, .inr rfl, e⟩)
  · exact .inl (by simpa using e.symm)

/-- Registering and attaching one servo: the error of the registration and nothing else, or one attached
slot more. -/
theorem buildServo_cases (pin : Byte) (s : State) :
    (∃ code, buildServo pin s = (s.setRes (.err code), none) ∧
      (s.srv.owned = false ∧ code = errNotInitialized ∨
       s.srv.owned = true ∧ s.srvCount = maxServos ∧ code = errTooManyServos)) ∨
    (s.srv.owned = true ∧ s.srvCount ≠ maxServos ∧ ∃ pins, buildServo pin s =
        ((((s.setSrv { s.srv with
            slots := s.srv.slots ++ [{ newSlot s.cfg pin with attached := true }] }).setPins pins).setT1
          (if active s then s.t1 else { s.t1 with
            prescale := s.cfg.srvPrescale, cnt := 0, pend := false, ie := true })).setRes .unit,
         some s.srvCount) ∧
      ∀ q, getPin (s.setPins pins) q =
        if pin = q then { getPin s q with dir := .output } else getPin s q) := by
  rcases registerServo_cases pin s with ⟨ho, h⟩ | ⟨ho, hc, h⟩ | ⟨ho, hc, h⟩
  · exact .inl ⟨_, by simp [buildServo, h], .inl ⟨ho, rfl⟩⟩
  · exact .inl ⟨_, by simp [buildServo, h], .inr ⟨ho, hc, rfl⟩⟩
  · refine .inr ⟨ho, hc, ?_⟩
    obtain ⟨pins, -, hp⟩ := setPinDir_eq pin .output s
    refine ⟨s.pins.set pin.toNat { getPin s pin with dir := .output } pin.isLt, ?_, ?_⟩
    · have hl : (s.srv.slots ++ [newSlot s.cfg pin])[s.srvCount]? = some (newSlot s.cfg pin) := by
        simp [State.srvCount]
      have ha : active ((s.setSrv { s.srv with slots := s.srv.slots ++ [newSlot s.cfg pin] }).setRes
          (.handle s.srvCount)) = active s := by simp [active, newSlot]
      simp only [buildServo, h, State.setRes_res, State.setRes_srv, State.setSrv_srv, hl]
      rw [attachSlot_eq, ha]
      have hset : (s.srv.slots ++ [newSlot s.cfg pin]).set s.srvCount
          { newSlot s.cfg pin with attached := true } =
          s.srv.slots ++ [{ newSlot s.cfg pin with attached := true }] := by
        simp [State.srvCount]
      generalize hw : ({ newSlot s.cfg pin with attached := true } : Slot) = w at hset
      have hm : ∀ lo hi : Half, lo = BitVec.ofNat 16 minPulseUs → hi = BitVec.ofNat 16 maxPulseUs →
          (⟨(newSlot s.cfg pin).pin, (newSlot s.cfg pin).ticks, true, lo, hi⟩ : Slot) = w := by
        intro lo hi hlo hhi; rw [← hw, hlo, hhi]; rfl
      simp only [State.setRes_srv, State.setSrv_srv, hm _ _ rfl rfl, hset]
      rfl
    · intro q
      have h := getPin_setPin s pin q { getPin s pin with dir := .output }
      refine h.trans ?_
      split
      · rename_i e; rw [e]
      · rfl

end Sys2Proof.Machine
end

