-- ==== Sys2Proof/Machine/MainLoop.lean ====
section
/-! DEFINITION. One iteration of the main loop (44_host.md R210), made of two stimulus words. No part of the
step: a script that does what the main loop does applies the same words. -/

namespace Sys2Proof.Machine

/-- A decoded command as the operands of `disp.cmd` (R82). -/
def commandWord (address command : Byte) (rep : Bool) : Instr :=
  .dispCmd (address.setWidth 16) (command.setWidth 16) (if rep then 1 else 0)

/-- Fetch the mailbox; if it held a command, dispatch that command to completion (R210). -/
def mainIteration (s : State) : Out :=
  andThen (applyWord (encode .mbxFetch) s) fun s1 =>
    match s1.res with
    | .cmd address command rep => applyWord (encode (commandWord address command rep)) s1
    | _ => .next s1

end Sys2Proof.Machine
end

