-- ==== Sys2Proof/Machine/Script.lean ====
section
/-! DEFINITION. Script text (30_encoding.md R88) and the pseudo-words (R89): how a script file is read
into stimulus words. No part of the step. -/

namespace Sys2Proof

/-! ### Pseudo-words (R89) -/

/-- `adv` with this many cycles, where they fit the 32-bit `n`; else the pseudo-word is ill-formed (R89). -/
def advOf (cycles : Nat) : Option Instr :=
  if cycles < 2 ^ 32 then some (.adv (BitVec.ofNat 32 cycles)) else none

/-- `srv.center hN` (R89). -/
def pseudoCenter (h : Byte) : Instr := .srvWriteus h (BitVec.ofNat 16 defaultPulseUs)

/-- `delay.us k` (R89). -/
def pseudoDelayUs (c : Config) (k : Nat) : Option Instr := advOf (k * c.cycPerUs)

/-- `delay.ms k` (R89). -/
def pseudoDelayMs (c : Config) (k : Nat) : Option Instr := advOf (k * 1000 * c.cycPerUs)

/-- `frame` (R89): one refresh frame of time. -/
def pseudoFrame (c : Config) : Option Instr := advOf (c.refreshTicks * c.srvPrescale.cycles)

/-! ### Operands as text (R88) -/

/-- One operand of a line of script text. -/
inductive ScriptOperand where
  | handle (n : Nat)
  | pin (n : Nat)
  | number (n : Int)
  deriving DecidableEq, Repr

/-- The value of a digit in base 10 or 16; the letters in both cases (DESIGN CHOICE, safe; log 27). -/
def digitValue (base : Nat) (c : Char) : Option Nat :=
  let n := c.toNat
  let v := if 48 ≤ n ∧ n ≤ 57 then some (n - 48)
    else if 97 ≤ n ∧ n ≤ 102 then some (n - 87)
    else if 65 ≤ n ∧ n ≤ 70 then some (n - 55)
    else none
  match v with
  | some d => if d < base then some d else none
  | none => none

/-- The digits of a number, most significant first. -/
def readDigits (base : Nat) : List Char → Nat → Option Nat
  | [], acc => some acc
  | c :: cs, acc =>
    match digitValue base c with
    | some d => readDigits base cs (acc * base + d)
    | none => none

/-- A number in decimal or, with `0x`, hexadecimal (R88); none for no digits. Leading zeros are taken
(DESIGN CHOICE, safe; log 27). -/
def readNat : List Char → Option Nat
  | [] => none
  | '0' :: 'x' :: [] => none
  | '0' :: 'x' :: cs => readDigits 16 cs 0
  | cs => readDigits 10 cs 0

/-- One operand (R88): `h0`.., `p0`.., a number, or a signed decimal. That the only sign is `-` (a `+` makes
the line ill-formed) and that hexadecimal is taken after `h`, `p` and `-` too is the model's (DESIGN CHOICE,
safe; log 27). -/
def readOperand : List Char → Option ScriptOperand
  | 'h' :: cs => (readNat cs).map .handle
  | 'p' :: cs => (readNat cs).map .pin
  | '-' :: cs => (readNat cs).map fun n => .number (-(n : Int))
  | cs => (readNat cs).map fun n => .number n

/-- The text without the blanks at its two ends; the space is the only blank (DESIGN CHOICE, safe;
log 27). -/
def trimBlanks (cs : List Char) : List Char :=
  ((cs.dropWhile (· == ' ')).reverse.dropWhile (· == ' ')).reverse

/-- The operands of a line, separated by commas (R88). -/
def readOperands (cs : List Char) : Option (List ScriptOperand) :=
  if trimBlanks cs = [] then some []
  else (cs.splitOn ',').mapM fun o => readOperand (trimBlanks o)

/-! ### A line of script text (R88) -/

def handleOf (n : Nat) : Option Byte := if n < 12 then some (BitVec.ofNat 8 n) else none
def pinOf (n : Nat) : Option Byte := if n < 256 then some (BitVec.ofNat 8 n) else none
def halfOf (n : Int) : Option Half := if 0 ≤ n ∧ n < 65536 then some (BitVec.ofInt 16 n) else none
def tempOf (n : Int) : Option Half := if -32768 ≤ n ∧ n < 32768 then some (BitVec.ofInt 16 n) else none
def quadOf (n : Int) : Option Quad := if 0 ≤ n ∧ n < 2 ^ 32 then some (BitVec.ofInt 32 n) else none

/-- The words with no operand, by mnemonic (R83). -/
def plainWord : String → Option Instr
  | "clk.start" => some .clkStart
  | "clk.now" => some .clkNow
  | "clk.tick" => some .clkTick
  | "srv.init" => some .srvInit
  | "srv.isr" => some .srvIsr
  | "rng.begin" => some .rngBegin
  | "rng.poll" => some .rngPoll
  | "rng.end" => some .rngEnd
  | "rng.edge" => some .rngEdge
  | "irq.off" => some .irqOff
  | "irq.on" => some .irqOn
  | "reset" => some .reset
  | "cmd.edge" => some .cmdEdge
  | "mbx.fetch" => some .mbxFetch
  | _ => none

/-- The words with operands and the pseudo-words, by mnemonic and operands (R83, R88, R89). A temperature and
a level are read as any number is, in hexadecimal too (DESIGN CHOICE, safe; log 27). -/
def operandWord (c : Config) : String → List ScriptOperand → Option Instr
  | "srv.new", [.pin p] => (pinOf p).map .srvNew
  | "srv.attach", [.handle h] => (handleOf h).map .srvAttach
  | "srv.attachl", [.handle h, .number a, .number b] => do
    return .srvAttachl (← handleOf h) (← halfOf a) (← halfOf b)
  | "srv.write", [.handle h, .number v] => do return .srvWrite (← handleOf h) (← halfOf v)
  | "srv.writeus", [.handle h, .number v] => do return .srvWriteus (← handleOf h) (← halfOf v)
  | "srv.detach", [.handle h] => (handleOf h).map .srvDetach
  | "rng.new", [.pin p, .number t, .pin e] => do
    return .rngNew (← pinOf p) (← tempOf t) ((← pinOf e).setWidth 16)
  | "rng.measure", [.number n] => (quadOf n).map .rngMeasure
  | "adv", [.number n] => (quadOf n).map .adv
  | "pin.set", [.pin p, .number l] => do return .pinSet (← pinOf p) (← halfOf l)
  | "mbx.put", [.number a, .number b, .number r] => do
    return .mbxPut (← halfOf a) (← halfOf b) (← halfOf r)
  | "disp.cmd", [.number a, .number b, .number r] => do
    return .dispCmd (← halfOf a) (← halfOf b) (← halfOf r)
  | "tur.build", [.pin y, .pin p, .pin r, .pin t, .pin e, .number k] => do
    return .turBuild (← pinOf y) (← pinOf p) (← pinOf r) (← pinOf t) (← pinOf e) (← tempOf k)
  | "srv.center", [.handle h] => (handleOf h).map pseudoCenter
  | "delay.us", [.number k] => if 0 ≤ k then pseudoDelayUs c k.toNat else none
  | "delay.ms", [.number k] => if 0 ≤ k then pseudoDelayMs c k.toNat else none
  | "frame", [] => pseudoFrame c
  | _, _ => none

/-- The instruction a line of script text stands for (R88): the inner `none` is a line with no word (blank,
or a comment), the outer one a line that is ill-formed. -/
def readLine (c : Config) (line : List Char) : Option (Option Instr) :=
  let text := trimBlanks (line.takeWhile (· != '#'))
  if text = [] then some none
  else
    let mnemonic := String.ofList (text.takeWhile (· != ' '))
    match readOperands (text.dropWhile (· != ' ')) with
    | none => none
    | some ops =>
      match (if ops = [] then plainWord mnemonic else none) with
      | some i => some (some i)
      | none =>
        match operandWord c mnemonic ops with
        | some i => if i.wellFormed then some (some i) else none
        | none => none

/-- The script a text stands for, one word per line (R88). -/
def readScript (c : Config) (lines : List (List Char)) : Option (List Word) :=
  match lines.mapM (readLine c) with
  | some is => some ((is.filterMap id).map encode)
  | none => none

end Sys2Proof
end

