-- ==== Sys2Proof/Tests/Slice0.lean ====
section
/-! SUPPORT. Tests: the words written out from 30_encoding.md R80 to R83, the checks of WellFormed, one-step
tests from the worked examples of the rules and the vectors of 95_test_vectors.md (named in each comment),
and for every statement a machine and operands that meet its hypotheses. -/

namespace Sys2Proof.Tests

open Sys2Proof Sys2Proof.Machine

/-! ### WellFormed: one ill-formed term for each check (R82), and the greatest operands that pass -/

theorem test_wf_rngNew_echo : (Instr.rngNew 7 20 256).wellFormed = false := by decide
theorem test_wf_pinSet_level : (Instr.pinSet 8 2).wellFormed = false := by decide
theorem test_wf_mbxPut_address : (Instr.mbxPut 256 0 0).wellFormed = false := by decide
theorem test_wf_mbxPut_command : (Instr.mbxPut 0 0x152 0).wellFormed = false := by decide
theorem test_wf_mbxPut_repeat : (Instr.mbxPut 0 0x52 2).wellFormed = false := by decide
theorem test_wf_dispCmd_address : (Instr.dispCmd 256 0 0).wellFormed = false := by decide
theorem test_wf_dispCmd_command : (Instr.dispCmd 0 256 0).wellFormed = false := by decide
theorem test_wf_dispCmd_repeat : (Instr.dispCmd 0 0 2).wellFormed = false := by decide

/-! ### Decoding: every row's word, written out field by field from R80 and R83 -/

theorem test_decode_clkStart : decode 0x0100000000000000 = .ok .clkStart := by decide
theorem test_decode_clkNow : decode 0x0200000000000000 = .ok .clkNow := by decide
theorem test_decode_clkTick : decode 0x0300000000000000 = .ok .clkTick := by decide
theorem test_decode_srvInit : decode 0x1000000000000000 = .ok .srvInit := by decide
theorem test_decode_srvNew : decode 0x1109000000000000 = .ok (.srvNew 9) := by decide
theorem test_decode_srvAttach : decode 0x1201000000000000 = .ok (.srvAttach 1) := by decide
/-- V-SRV-6. -/
theorem test_decode_srvAttachl : decode 0x130103E807D00000 = .ok (.srvAttachl 1 1000 2000) := by decide
theorem test_decode_srvWrite : decode 0x140100000000005A = .ok (.srvWrite 1 90) := by decide
/-- R88. -/
theorem test_decode_srvWriteus : decode 0x15000000000005DC = .ok (.srvWriteus 0 1500) := by decide
/-- V-ENC-1. -/
theorem test_decode_srvDetach : decode 0x160B000000000000 = .ok (.srvDetach 11) := by decide
theorem test_decode_srvIsr : decode 0x1700000000000000 = .ok .srvIsr := by decide
/-- V-ENC-1. -/
theorem test_decode_rngNew : decode 0x2007FFEC00000008 = .ok (.rngNew 7 (-20) 8) := by decide
theorem test_decode_rngBegin : decode 0x2100000000000000 = .ok .rngBegin := by decide
theorem test_decode_rngPoll : decode 0x2200000000000000 = .ok .rngPoll := by decide
theorem test_decode_rngEnd : decode 0x2300000000000000 = .ok .rngEnd := by decide
/-- V-ENC-1. -/
theorem test_decode_rngMeasure : decode 0x2400000000000190 = .ok (.rngMeasure 400) := by decide
theorem test_decode_rngEdge : decode 0x2500000000000000 = .ok .rngEdge := by decide
/-- R88. -/
theorem test_decode_adv : decode 0x300000000009C400 = .ok (.adv 640000) := by decide
theorem test_decode_pinSet : decode 0x3108000000000001 = .ok (.pinSet 8 1) := by decide
theorem test_decode_irqOff : decode 0x3200000000000000 = .ok .irqOff := by decide
theorem test_decode_irqOn : decode 0x3300000000000000 = .ok .irqOn := by decide
theorem test_decode_reset : decode 0x3400000000000000 = .ok .reset := by decide
theorem test_decode_cmdEdge : decode 0x4000000000000000 = .ok .cmdEdge := by decide
theorem test_decode_mbxPut : decode 0x410000AB00520001 = .ok (.mbxPut 0xAB 0x52 1) := by decide
theorem test_decode_mbxFetch : decode 0x4200000000000000 = .ok .mbxFetch := by decide
theorem test_decode_dispCmd : decode 0x4300003400160001 = .ok (.dispCmd 0x34 0x16 1) := by decide
/-- R220's worked example. -/
theorem test_decode_turBuild : decode 0x44090A0B07080014 = .ok (.turBuild 9 10 11 7 8 20) := by decide
/-- V-ENC-2: an opcode that is not assigned, an unused field that is not 0, an operand out of range. -/
theorem test_decode_reserved_opcode : decode 0x0500000000000000 = .error .reservedOpcode := by decide
theorem test_decode_reserved_unused : decode 0x0100000000000001 = .error .unusedFieldNotZero := by decide
theorem test_decode_reserved_operand : decode 0x2007001400000108 = .error .operandOutOfRange := by decide
/-- R80: a stored word lies most significant byte first. -/
theorem test_decodeBytes_order :
    decodeBytes [0x31, 0x08, 0, 0, 0, 0, 0, 0x01, 0xFF] = .ok (.pinSet 8 1, [0xFF]) := by decide
theorem test_decodeBytes_short : decodeBytes [0x31, 0x08, 0, 0, 0, 0, 0] = .error .truncatedWord := by decide

/-! ### Small machines -/

/-- After reset. -/
def off : State := State.reset

/-- After reset and `clk.start` (V-CLK-1). -/
def clocked : State := startClock off

/-- A slot on pin 9 with the default width and limits (V-SRV-1). -/
def slot9 : Slot where
  pin := 9
  ticks := 3000
  attached := false
  minUs := 544
  maxUs := 2400

/-- A slot on pin 10, attached. -/
def slot10 : Slot where
  pin := 10
  ticks := 2996
  attached := true
  minUs := 544
  maxUs := 2400

/-- The multiplexer with the slots given, T1 enabled as they ask, the pins of the attached ones outputs. -/
def withSlots (l : List Slot) : State :=
  (l.filter (·.attached)).foldl (fun s sl => setPinDir sl.pin .output s)
    ((off.setSrv { owned := true, slots := l, channel := -1 }).setT1
      { off.t1 with ie := l.any (·.attached), prescale := .p8 })

/-- One detached slot. -/
def detached1 : State := withSlots [slot9]
/-- A detached slot 0 and an attached slot 1. -/
def mixed : State := withSlots [slot9, slot10]
/-- Twelve slots. -/
def full : State := withSlots (List.replicate 12 slot9)

/-- The driver of R151's worked example. -/
def driver : Driver where
  temp := 20
  trig := 7
  echo := 8

/-- After `rng.new p7, 20, p8`. -/
def ranged : State := constructDriver 7 20 8 off

/-- In a measurement: the ranging state, the two timestamps, where MAIN stands. -/
def measuring (st : RngState) (tt et : Option Quad) (m : Meas) : State :=
  ((ranged.setRng { state := st, trigTime := tt, echoTime := et, cfg := some driver }).setEdge
    { mode := modeOf st, pend := false }).setMeas m

/-- A turret on three attached slots at the pitch given (V-HOST-1). -/
def turret (pitch : Nat) : State :=
  (((withSlots [{ slot10 with pin := 9 }, slot10, { slot10 with pin := 11 }]).setRng
    { off.rng with cfg := some driver }).setTur (some { pitch := pitch, yaw := 0, pit := 1, roll := 2 }))

/-- A configuration that is quick to run: one cycle per microsecond, 25 cycles per tick, no waits. -/
def quick : Config :=
  { cfgA with fOscHz := 1000000, clkPrescale := .p1, srvPrescale := .p1, pitchSettleMs := 0,
              yawSpinMs := 0, rollFireMs := 0, decoder := some 5 }

/-- A machine after reset with `quick`. -/
def quickOff : State := State.afterReset quick 0 [] 0

/-- The next state of a word, or the state itself where there is none. -/
def after (i : Instr) (s : State) : State :=
  match exec i s with
  | .next t => t
  | .fault _ => s
  | .refused _ => s

/-- The refusal of an outcome. -/
def refusal : Out → Option Refusal
  | .next _ => none
  | .fault _ => none
  | .refused r => some r

/-- The fault of an outcome. -/
def fault : Out → Option Fault
  | .next _ => none
  | .fault f => some f
  | .refused _ => none

/-- The next state of an outcome. -/
def next : Out → Option State
  | .next s => some s
  | .fault _ => none
  | .refused _ => none

theorem eq_refused {o : Out} {r : Refusal} (h : refusal o = some r) : o = .refused r := by
  cases o <;> simp_all [refusal]

theorem eq_fault {o : Out} {f : Fault} (h : fault o = some f) : o = .fault f := by
  cases o <;> simp_all [fault]

theorem eq_next {o : Out} {s : State} (h : next o = some s) : o = .next s := by
  cases o <;> simp_all [next]

theorem exists_next {o : Out} (h : (next o).isSome = true) : ∃ s, o = .next s := by
  cases o <;> simp_all [next]

/-! ### One-step tests -/

/-- V-CLK-1. -/
theorem test_clkStart_t0 : (after .clkStart off).t0 =
    { run := true, prescale := .p8, cmp := 49, cnt := 0, ie := true, pend := false } := by decide +kernel
theorem test_clkStart_twice : refusal (exec .clkStart clocked) = some .alreadyStarted := by decide +kernel
/-- V-CLK-3: the wrap. -/
theorem test_clkNow_wraps : (after .clkNow (off.setClk
    { counter := 0xFFFFFFFE, part := 2, started := false })).res = .u32 0 := by decide +kernel
theorem test_clkTick_folds : (after .clkTick (off.setClk
    { counter := 0xFFFFFFFE, part := 3, started := false })).clk =
    { counter := 2, part := 0, started := false } := by decide +kernel
/-- V-CLK-2. -/
theorem test_clkTick_counts : (after .clkTick (off.setClk
    { counter := 4, part := 2, started := false })).clk =
    { counter := 4, part := 3, started := false } := by decide +kernel
/-- V-SRV-1. -/
theorem test_srvInit_owned : (after .srvInit off).srv.owned = true := by decide +kernel
theorem test_srvInit_twice : refusal (exec .srvInit detached1) = some .alreadyInitialized := by decide +kernel
theorem test_srvNew_notInitialized : (after (.srvNew 9) off).res = .err 1 := by decide +kernel
theorem test_srvNew_slot : (after (.srvNew 9) (after .srvInit off)).srv.slots = [slot9] := by decide +kernel
/-- V-SRV-8: an arming attach. -/
theorem test_srvAttach_arms : (after (.srvAttach 0) detached1).t1 =
    { prescale := .p8, cmp := 0, cnt := 0, ie := true, pend := false } := by decide +kernel
theorem test_srvAttach_pin : getPin (after (.srvAttach 0) detached1) 9 =
    { dir := .output, level := .low } := by decide +kernel
/-- V-SRV-6, V-SRV-3. -/
theorem test_srvAttachl_limits : ((after (.srvAttachl 0 1000 2000) mixed).srv.slots[0]?).map
    (fun sl => (sl.minUs, sl.maxUs, sl.attached)) = some (1000, 2000, true) := by decide +kernel
theorem test_srvAttachl_tooLarge : refusal (exec (.srvAttachl 0 0 32768) mixed) = some .limitTooLarge := by
  decide +kernel
/-- V-SRV-4. -/
theorem test_srvWrite_1 : ((after (.srvWrite 1 1) mixed).srv.slots[1]?).map (·.ticks) = some 1104 := by
  decide +kernel
theorem test_srvWrite_200 : ((after (.srvWrite 1 200) mixed).srv.slots[1]?).map (·.ticks) = some 4796 := by
  decide +kernel
/-- V-SRV-5. -/
theorem test_srvWriteus_543 : ((after (.srvWriteus 1 543) mixed).srv.slots[1]?).map (·.ticks) = some 1084 := by
  decide +kernel
theorem test_srvWriteus_2399 : ((after (.srvWriteus 1 2399) mixed).srv.slots[1]?).map (·.ticks) =
    some 4794 := by decide +kernel
/-- R132: the only attached slot; the width and the channel stay. -/
theorem test_srvDetach_last : (after (.srvDetach 1) mixed).t1.ie = false := by decide +kernel
theorem test_srvDetach_keeps_ticks : ((after (.srvDetach 1) mixed).srv.slots[1]?).map
    (fun sl => (sl.ticks, sl.attached)) = some (2996, false) := by decide +kernel
/-- V-ISR-2, and V-ISR-3 at the wrap. -/
theorem test_srvIsr_starts : (after .srvIsr (withSlots [slot10])).t1.cmp = 2996 ∧
    (getPin (after .srvIsr (withSlots [slot10])) 10).level = .high := by decide +kernel
theorem test_srvIsr_guard_wraps :
    (after .srvIsr (setT1Cnt 65534 (setChannel 0 (withSlots [slot10])))).t1.cmp = 2 := by decide +kernel
/-- R151's worked example, and V-RNG-5 at the last refused temperature. -/
theorem test_rngNew_driver : (after (.rngNew 7 20 8) off).rng.cfg = some driver := by decide +kernel
theorem test_rngNew_cold : refusal (exec (.rngNew 7 (-547) 8) off) = some .badTemperature := by decide +kernel
/-- R155: in Idle, and V-EXC-1. -/
theorem test_rngBegin_triggers :
    (after .rngBegin (constructDriver 7 20 8 quickOff)).trace =
      [{ t := 4, pin := 7, level := .high }, { t := 14, pin := 7, level := .low }] := by decide +kernel
theorem test_rngBegin_busy :
    (after .rngBegin (measuring .triggered none none (.inLoop 0))).fault = some 0x80 := by decide +kernel
/-- R158's worked example. -/
theorem test_rngPoll_rearms : (after .rngPoll ((measuring .triggered (some 10) none (.inLoop 0)).setClk
    { counter := 12, part := 0, started := true })).rng.state = .measuring := by decide +kernel
theorem test_rngPoll_timeout : (after .rngPoll ((measuring .triggered none none (.inLoop 0)).setClk
    { counter := 931, part := 0, started := true })).meas = .exiting := by decide +kernel
/-- V-RNG-6 (h) and (g). -/
theorem test_rngEnd_longest : (after .rngEnd (measuring .measuring (some 0) (some 0xFFFFFFFF)
    .exiting)).res = .u32 0xFFFFFFFF := by decide +kernel
theorem test_rngEnd_wrapped : (after .rngEnd (measuring .measuring (some 0xFFFFFFF0) (some 5)
    .exiting)).res = .err 5 := by decide +kernel
/-- V-RNG-5, V-RNG-4. -/
theorem test_rngMeasure_zero : refusal (exec (.rngMeasure 0) ranged) = some .zeroPoll := by decide +kernel
theorem test_rngMeasure_hangs :
    fault (exec (.rngMeasure 1) (quickOff.setRng { off.rng with cfg := some driver })) = some .hang := by
  decide +kernel
/-- R166's worked example. -/
theorem test_rngEdge_triggered : (after .rngEdge ((measuring .triggered none none (.inLoop 0)).setClk
    { counter := 8, part := 2, started := true })).rng.trigTime = some 10 := by decide +kernel
theorem test_rngEdge_measuring : (after .rngEdge ((measuring .measuring (some 10) none (.inLoop 0)).setClk
    { counter := 40, part := 0, started := true })).rng.echoTime = some 40 := by decide +kernel
/-- R180, and R182 at the match: T0 with prescale 1 whose counter stands at its compare value. -/
theorem test_adv_time : (after (.adv 5) off).t = 5 := by decide +kernel
theorem test_adv_match : (after (.adv 1) (off.setT0
    { run := true, prescale := .p1, cmp := 49, cnt := 49, ie := true, pend := false })).t0.pend = true := by decide +kernel
/-- V-ENV-3, V-RNG-5. -/
theorem test_pinSet_level : getPin (after (.pinSet 40 1) off) 40 =
    { dir := .input, level := .high } := by decide +kernel
theorem test_pinSet_output : refusal (exec (.pinSet 7 1) ranged) = some .pinIsOutput := by decide +kernel
/-- R39: an input pin is not driven, an output pin is. -/
theorem test_pinWrite_input : pinWrite 8 .high ranged = ranged := by decide +kernel
theorem test_pinWrite_output : (pinWrite 7 .high ranged).trace =
    [{ t := 0, pin := 7, level := .high }] := by decide +kernel
/-- V-EXC-4. -/
theorem test_irqOff_clears : (after .irqOff (off.setCpuI true)).cpuI = false := by decide +kernel
theorem test_irqOn_sets : (after .irqOn off).cpuI = true := by decide +kernel
/-- V-ENV-4. -/
theorem test_reset_faulted : (after .reset (raiseFault 0x80 clocked)).fault = none := by decide +kernel
theorem test_reset_time : (after .reset (clocked.setT 224)).t = 0 := by decide +kernel
/-- V-HOST-10. -/
theorem test_cmdEdge_noDecoder : refusal (exec .cmdEdge off) = some .noDecoder := by decide +kernel
/-- V-HOST-2. -/
theorem test_mbxPut_stores : (after (.mbxPut 0 0x52 1) off).mbx =
    some { address := 0, command := 0x52, rep := true } := by decide +kernel
theorem test_mbxFetch_takes : (after .mbxFetch (off.setMbx
    (some { address := 0, command := 0x52, rep := true }))).res = .cmd 0 0x52 true := by decide +kernel
theorem test_mbxFetch_empty : (after .mbxFetch off).res = .noCmd := by decide +kernel
/-- V-HOST-5 (b), without the wait. -/
theorem test_dispCmd_up : ((after (.dispCmd 0 0x52 0) ({ turret 40 with cfg := { cfgA with
    pitchSettleMs := 0 } })).srv.slots[1]?).map (·.ticks) = some 1804 := by decide +kernel
/-- V-HOST-8: an unknown code. -/
theorem test_dispCmd_unknown : (after (.dispCmd 0 0x45 0) (turret 100)).srv = (turret 100).srv := by
  decide +kernel
/-- V-HOST-1, V-HOST-9. -/
theorem test_turBuild_turret : (after (.turBuild 9 10 11 7 8 20) (after .srvInit off)).tur =
    some { pitch := 100, yaw := 0, pit := 1, roll := 2 } := by decide +kernel
theorem test_turBuild_full : (after (.turBuild 9 10 11 7 8 20)
    (withSlots (List.replicate 10 slot9))).res = .err 2 := by decide +kernel

/-! ### The step, and interrupts -/

/-- V-EXC-2: with the default order the edge is taken before the tick and reads the count before it. -/
theorem test_dispatch_priority : (dispatch ((((measuring .triggered none none (.inLoop 0)).setT0
    { clocked.t0 with pend := true }).setEdge { mode := .rising, pend := true }).setCpuI true)).rng.trigTime =
    some 0 := by decide +kernel
/-- R236: the step runs `DISPATCH()` after the word. -/
theorem test_step_dispatches : (next (step ((clocked.setT0 { clocked.t0 with pend := true }).setScript
    [0x3300000000000000]))).map (fun s => (s.clk.part, s.t0.pend)) = some (1, false) := by decide +kernel
theorem test_step_ended : refusal (step off) = some .scriptEnded := by decide +kernel
theorem test_withFetchWord : (next (step (off.withFetchWord 64 0x3300000000000000))).map
    (fun s => (s.cpuI, s.script)) = some (true, []) := by decide +kernel

/-- R210: an iteration fetches and dispatches (V-HOST-4: a repeated OK moves nothing). -/
theorem test_mainIteration : (next (mainIteration ((turret 100).setMbx
    (some { address := 0, command := 0x1C, rep := true })))).map (fun s => (s.mbx, s.res, s.t)) =
    some (none, .unit, 0) := by decide +kernel

/-! ### Timeouts, distances, scripts -/

/-- V-RNG-1. -/
theorem test_timeout : [20, 0, -20, 40].map cfgA.timeoutTicks = [931, 965, 1002, 900] := by decide +kernel
/-- V-RNG-14. -/
theorem test_distance : cfgA.distanceM 30 20 = 1287825 / 10000000 := by decide +kernel
/-- R9. -/
theorem test_cfgA : cfgA.wellFormed = true ∧ cfgA.tickPeriodCyc = 400 ∧ cfgA.refreshTicks = 40000 := by
  decide +kernel

/-! ### Script text (R88, R89) -/

/-- R88's third example, with a comment after it. -/
theorem test_readLine_word : readLine cfgA ['r', 'n', 'g', '.', 'n', 'e', 'w', ' ', 'p', '7', ',', ' ', '2', '0',
    ',', ' ', 'p', '8', ' ', '#', 'x'] = some (some (.rngNew 7 20 8)) := by decide +kernel
/-- R89: one refresh frame is 320000 cycles in CFG-A. -/
theorem test_readLine_frame : readLine cfgA ['f', 'r', 'a', 'm', 'e'] = some (some (.adv 320000)) := by
  decide +kernel

/-! ### Witnesses: for every statement with hypotheses, a machine and operands that meet them all -/

/-- Interrupts on, nothing requesting. -/
def on : State := off.setCpuI true

theorem quiet_of_flags {s : State} (h0 : s.t0.pend = false) (h1 : s.t1.pend = false)
    (hE : s.edge.pend = false) : Quiet s := by
  intro _ _ src
  cases src <;> simp [requesting, h0, h1, hE]

theorem witness_DecodeEncodeRoundTrip : (Instr.mbxPut 255 255 1).wellFormed = true ∧
    (Instr.pinSet 255 1).wellFormed = true ∧ (Instr.rngNew 255 0x8000 255).wellFormed = true := by decide

theorem witness_DecodedWordIsItsEncoding :
    decode 0x30000000FFFFFFFF = .ok (.adv 0xFFFFFFFF) := by decide

theorem witness_ReservedWordsAreRefused_opcode : ((0x4500000000000000 : Word).extractLsb' 56 8).toNat ∉
    [0x01, 0x02, 0x03, 0x10, 0x11, 0x12, 0x13, 0x14, 0x15, 0x16, 0x17, 0x20, 0x21, 0x22, 0x23, 0x24,
     0x25, 0x30, 0x31, 0x32, 0x33, 0x34, 0x40, 0x41, 0x42, 0x43, 0x44] := by decide

theorem witness_ReservedWordsAreRefused_word : ∀ i : Instr, i.wellFormed = true → encode i ≠ 0 := by
  intro i _ e
  have h := congrArg opField e
  cases i <;> simp only [encode, packN32, opField_packWord] at h <;> exact absurd h (by decide)

/-- A script of one word. -/
def scripted (w : Word) (s : State) : State := s.setScript [w]

theorem witness_StepRunsDecodedInstruction_next :
    (scripted 0x3300000000000000 off).script = [0x3300000000000000] ∧
    decode 0x3300000000000000 = .ok .irqOn ∧
    ∃ t, exec .irqOn { scripted 0x3300000000000000 off with script := [] } = .next t :=
  ⟨rfl, by decide, exists_next (by decide +kernel)⟩

theorem witness_StepRunsDecodedInstruction_fault :
    decode 0x2400000000000001 = .ok (.rngMeasure 1) ∧
    exec (.rngMeasure 1) { quickOff.setRng { off.rng with cfg := some driver } with script := [] } =
      .fault .hang := ⟨by decide, eq_fault (by decide +kernel)⟩

theorem witness_StepRunsDecodedInstruction_refused :
    decode 0x2400000000000000 = .ok (.rngMeasure 0) ∧
    exec (.rngMeasure 0) { off with script := [] } = .refused .zeroPoll :=
  ⟨by decide, eq_refused (by decide +kernel)⟩

theorem witness_StepLeavesNothingToTake :
    ∃ t, step (scripted 0x3300000000000000 (clocked.setT0 { clocked.t0 with pend := true })) = .next t ∧
      t.cpuI = true ∧ t.fault = none := ⟨_, eq_next rfl, by decide +kernel⟩

/-- Both timers are requesting, H_SERVO stands first of the two in CFG-A's order. -/
theorem witness_PriorityDecidesWhichIsTaken :
    let s := (on.setT0 { clocked.t0 with pend := true }).setT1 { off.t1 with pend := true, ie := true }
    s.cpuI = true ∧ s.fault = none ∧ requesting s .servo = true ∧
    ∀ other, requesting s other = true → other ≠ .servo → [.servo, other].Sublist s.cfg.prio.order := by
  refine ⟨rfl, rfl, rfl, fun other h hn => ?_⟩
  cases other
  · exact absurd h (by decide)
  · exact absurd rfl hn
  · decide

theorem witness_EntryAndReturnTouchFlagsOnly : off.fault = none := rfl

/-- T0 runs with prescale 1, its counter above its compare value. -/
def above : State :=
  off.setT0 { run := true, prescale := .p1, cmp := 49, cnt := 50, ie := true, pend := false }

/-- The stopped timers, and T0 below, at and above its compare value, on both sides of the wrap. -/
theorem witness_MaskedTimeOnlyCounts : off.cpuI = false ∧ off.t0.run = false ∧ off.t1.ie = false ∧
    clocked.cpuI = false ∧ clocked.t0.run = true ∧ clocked.t0.cnt.toNat ≤ clocked.t0.cmp.toNat ∧
    (withSlots [slot10]).cpuI = false ∧ (withSlots [slot10]).t1.ie = true ∧
    above.cpuI = false ∧ above.t0.cmp.toNat < above.t0.cnt.toNat ∧
    above.t0.cnt.toNat + ((above.t + 205) / above.t0.prescale.cycles - above.t / above.t0.prescale.cycles) < 256 ∧
    256 ≤ above.t0.cnt.toNat + ((above.t + 206) / above.t0.prescale.cycles
      - above.t / above.t0.prescale.cycles) := by decide +kernel

theorem witness_ClkStartConfiguresT0 : off.cfg.wellFormed = true ∧ off.fault = none ∧
    off.clk.started = false ∧ clocked.cfg.wellFormed = true ∧ clocked.fault = none ∧
    clocked.clk.started = true := by decide +kernel

theorem witness_ClkTickIncrementsAndFolds :
    (off.setClk { off.clk with part := 3 }).cfg.foldThreshold < ((3 : Byte) + 1).toNat ∧
    ((2 : Byte) + 1).toNat ≤ (off.setClk { off.clk with part := 2 }).cfg.foldThreshold ∧
    off.fault = none := by decide

/-- The greatest threshold, the sub-counter at it. -/
def fullPart : State :=
  { off with cfg := { cfgA with foldThreshold := 254 }, clk := { off.clk with part := 254 } }

theorem witness_ClkTickAdvancesNowByOne : fullPart.cfg.foldThreshold ≤ 254 ∧
    fullPart.clk.part.toNat ≤ fullPart.cfg.foldThreshold ∧ fullPart.fault = none := by decide

theorem witness_FoldOnEveryThresholdPlusOneTicks : off.cfg.foldThreshold ≤ 254 ∧ off.clk.part = 0 ∧
    off.fault = none ∧ 3 ≤ off.cfg.foldThreshold := by decide

theorem witness_ClkNowReturnsCount : Quiet on ∧ on.fault = none := ⟨quiet_of_flags rfl rfl rfl, rfl⟩

theorem witness_FirstTickAfterOnePeriod : off.cfg.wellFormed = true ∧ off.fault = none ∧
    off.cpuI = false ∧ off.clk.started = false ∧ off.t % off.cfg.clkPrescale.cycles = 0 ∧
    399 < off.cfg.tickPeriodCyc := by decide +kernel

/-- T0 with prescale 1 that matches in the next cycle. -/
def matching : State :=
  off.setT0 { run := true, prescale := .p1, cmp := 49, cnt := 49, ie := true, pend := false }

theorem witness_LostTicksMergeIntoOne : Quiet (matching.setCpuI true) ∧ matching.cpuI = false ∧
    matching.fault = none ∧ matching.t0.ie = true ∧ matching.cfg.foldThreshold ≤ 254 ∧
    matching.clk.part.toNat ≤ matching.cfg.foldThreshold ∧ 1 ≤ t0Matches 1 matching ∧
    t0Matches 0 matching = 0 ∧ matching.t0.pend = false ∧
    matching.t0.cnt.toNat ≤ matching.t0.cmp.toNat :=
  ⟨quiet_of_flags rfl rfl rfl, by decide +kernel⟩

theorem witness_SrvInitHandsTimerOver : off.fault = none ∧ off.srv.owned = false ∧
    detached1.fault = none ∧ detached1.srv.owned = true := by decide

theorem witness_SrvNewRegistersSlot : off.fault = none ∧ off.srv.owned = false ∧ full.fault = none ∧
    full.srv.owned = true ∧ full.srv.slots.length = 12 ∧
    (withSlots (List.replicate 11 slot9)).srv.slots.length < 12 ∧ full.cfg.wellFormed = true := by
  decide +kernel

theorem witness_TwelveServosAndNoMore : (withSlots []).fault = none ∧ (withSlots []).srv.owned = true ∧
    (withSlots []).srv.slots = [] ∧ (List.replicate 12 (20 : Byte)).length ≤ 12 ∧
    (List.replicate 12 (20 : Byte)).length = 12 ∧ [(32 : Byte)] ≠ [] := by decide

theorem witness_SrvAttachArmsOnFirst : mixed.fault = none ∧
    mixed.srv.slots[(0 : Byte).toNat]? = some slot9 ∧ slot9.attached = false ∧
    detached1.srv.slots[(0 : Byte).toNat]? = some slot9 := by decide

theorem witness_SrvAttachlSetsLimits : mixed.fault = none ∧
    mixed.srv.slots[(0 : Byte).toNat]? = some slot9 ∧ slot9.attached = false ∧
    (0 : Half).toNat < (1 : Half).toNat ∧ 65535 < mixed.cfg.usToTicks (32768 : Half).toNat ∧
    (32767 : Half).toNat ≤ (32767 : Half).toNat ∧ mixed.cfg.usToTicks (32767 : Half).toNat ≤ 65535 := by
  decide

theorem witness_HandleWordsCheckHandle : mixed.fault = none ∧ mixed.srv.slots.length ≤ (2 : Byte).toNat ∧
    mixed.srv.slots[(1 : Byte).toNat]? = some slot10 ∧ slot10.attached = true ∧
    mixed.srv.slots[(0 : Byte).toNat]? = some slot9 ∧ slot9.attached = false := by decide

theorem witness_WidthLaws : slot10.minUs.toNat ≤ slot10.maxUs.toNat ∧ 2400 ≤ 2401 ∧
    (∃ t, exec (.srvWrite 1 180) mixed = .next t) ∧ (∃ t, exec (.srvWriteus 1 0) mixed = .next t) ∧
    (mixed.setRes .unit).cfg = mixed.cfg ∧
    (mixed.setRes .unit).srv.slots[(1 : Byte).toNat]? = mixed.srv.slots[(1 : Byte).toNat]? ∧
    ∃ t, exec (.srvWrite 1 180) (mixed.setRes .unit) = .next t :=
  ⟨by decide, by decide, exists_next (by decide +kernel), exists_next (by decide +kernel), rfl, rfl,
    exists_next (by decide +kernel)⟩

theorem witness_SrvWriteStoresAngle : Quiet mixed ∧ mixed.fault = none ∧
    mixed.srv.slots[(1 : Byte).toNat]? = some slot10 ∧ slot10.attached = true ∧
    slot10.minUs.toNat ≤ slot10.maxUs.toNat := ⟨quiet_of_flags rfl rfl rfl, by decide⟩

theorem witness_SrvWriteusStoresWidth : Quiet mixed ∧ mixed.fault = none ∧
    mixed.srv.slots[(2 : Byte).toNat]? = none ∧ mixed.srv.slots[(0 : Byte).toNat]? = some slot9 ∧
    slot9.attached = false ∧ mixed.srv.slots[(1 : Byte).toNat]? = some slot10 ∧ slot10.attached = true ∧
    slot10.minUs.toNat ≤ slot10.maxUs.toNat := ⟨quiet_of_flags rfl rfl rfl, by decide⟩

theorem witness_SrvDetachStopsLast : mixed.fault = none ∧ mixed.srv.slots[(2 : Byte).toNat]? = none ∧
    mixed.srv.slots[(0 : Byte).toNat]? = some slot9 ∧ slot9.attached = false ∧
    mixed.srv.slots[(1 : Byte).toNat]? = some slot10 ∧ slot10.attached = true := by decide

theorem witness_SrvIsrWalksSlots : (getPin ranged 8).dir = .input ∧ (getPin ranged 7).level = .low ∧
    (getPin ranged 7).dir = .output ∧ (getPin ranged 7).level ≠ .high ∧
    off.fault = none ∧ off.srv.channel = -1 ∧ off.srv.slots = [] ∧
    mixed.srv.channel = -1 ∧ mixed.srv.slots[0]? = some slot9 ∧
    (setChannel 0 mixed).srv.channel = BitVec.ofNat 8 0 ∧ (setChannel 0 mixed).srv.slots[0]? = some slot9 ∧
    (setChannel 0 mixed).srv.slots[0 + 1]? = some slot10 ∧
    (setChannel 11 full).srv.channel = BitVec.ofNat 8 11 ∧ 11 < 12 ∧
    (setChannel 11 full).srv.slots[11]? = some slot9 ∧ (setChannel 11 full).srv.slots[11 + 1]? = none := by
  decide +kernel

theorem witness_CompareMatchesAfterItsCounts :
    (off.setT1 { off.t1 with cmp := 1 }).t1.cmp = off.t1.cnt + BitVec.ofNat 16 1 ∧
    off.t1.cmp = off.t1.cnt + BitVec.ofNat 16 65536 ∧ off.t1.pend = false := by decide

theorem witness_StepKeepsServoInv : (scripted 0x3300000000000000 mixed).cfg.wellFormed = true ∧
    ServoInv (scripted 0x3300000000000000 mixed) ∧
    ∃ t, step (scripted 0x3300000000000000 mixed) = .next t :=
  ⟨by decide +kernel, by constructor <;> decide, exists_next (by decide +kernel)⟩

theorem witness_RegisteredSlotsStay : Instr.irqOn ≠ .reset ∧ (∃ t, exec .irqOn mixed = .next t) ∧
    mixed.srv.owned = true := ⟨by decide, exists_next (by decide +kernel), rfl⟩

theorem witness_RngNewConstructsDriver : ranged.fault = none ∧ ranged.rng.cfg.isSome = true ∧
    off.rng.cfg = none ∧ off.cfg.speedOfSound (-547 : Half).toInt ≤ 0 ∧
    0 < off.cfg.speedOfSound (-546 : Half).toInt := by decide +kernel

theorem witness_RngBeginTriggers : (off.fault = none ∧ off.rng.cfg = none ∧ (1 : Quad) ≠ 0) ∧
    (ranged.fault = none ∧ ranged.rng.cfg = some driver ∧
    ranged.rng.state = .idle ∧ ranged.edge.mode = .off ∧ (getPin ranged driver.trig).dir = .output) ∧
    ∀ sl ∈ ranged.srv.slots, sl.attached = true → sl.pin ≠ driver.trig := by decide

theorem witness_OnlyBusyMeasurementFaults :
    let s := measuring .triggered none none (.inLoop 0)
    Quiet s ∧ s.fault = none ∧ s.rng.cfg.isSome = true ∧ s.rng.state ≠ .idle ∧ (1 : Quad) ≠ 0 ∧
    ∃ t, exec .rngBegin s = .next t ∧ t.fault ≠ none :=
  ⟨quiet_of_flags rfl rfl rfl, by decide, by decide, by decide, by decide, _, eq_next rfl, by decide +kernel⟩

/-- The tick count `n`, no slot of the fold open. -/
def atTick (n : Quad) (s : State) : State := s.setClk { counter := n, part := 0, started := true }

theorem witness_RngPollPass : (∀ start, off.meas ≠ .inLoop start) ∧
    (let s := atTick 931 (measuring .triggered (some 10) none (.inLoop 0))
     Quiet s ∧ s.fault = none ∧ s.meas = .inLoop 0 ∧ s.rng.cfg = some driver ∧
     s.cfg.timeoutTicks driver.temp.toInt ≤ (s.clk.counter + s.clk.part.setWidth 32 - 0).toNat) ∧
    (let s := atTick 930 (measuring .triggered (some 10) none (.inLoop 0))
     (s.clk.counter + s.clk.part.setWidth 32 - 0).toNat < s.cfg.timeoutTicks driver.temp.toInt ∧
     s.rng.state = .triggered ∧ s.rng.trigTime.isSome = true) ∧
    (let s := atTick 930 (measuring .triggered none none (.inLoop 0))
     (s.clk.counter + s.clk.part.setWidth 32 - 0).toNat < s.cfg.timeoutTicks driver.temp.toInt ∧
     (s.rng.state ≠ .triggered ∨ s.rng.trigTime = none)) :=
  ⟨(by intro start h; exact absurd h (by simp [off, State.reset, State.afterReset])),
    ⟨quiet_of_flags rfl rfl rfl, by decide +kernel⟩, by decide +kernel, by decide +kernel⟩

theorem witness_RngEndReturnsResult : off.fault = none ∧ off.meas ≠ .exiting ∧
    Quiet (measuring .measuring (some 100) (some 130) .exiting) ∧
    (measuring .measuring (some 100) (some 130) .exiting).meas = .exiting :=
  ⟨rfl, by decide, quiet_of_flags rfl rfl rfl, rfl⟩

theorem witness_RngEndLaws :
    (∃ t, exec .rngEnd (measuring .measuring (some 0) (some 1) .exiting) = .next t ∧ t.res = .u32 1) ∧
    (∃ t, exec .rngEnd (measuring .triggered none none .exiting) = .next t) ∧
    (∃ t, exec .rngEnd (measuring .measuring (some 100) (some 100) .exiting) = .next t) ∧
    (100 : Quad).toNat ≤ (100 : Quad).toNat :=
  ⟨⟨_, eq_next rfl, by decide +kernel⟩, exists_next (by decide +kernel), exists_next (by decide +kernel),
    by decide⟩

/-- A machine with `quick`, its clock started, interrupts on, a driver constructed. -/
def ticking : State := (startClock quickOff).setRng { off.rng with cfg := some driver } |>.setCpuI true

theorem witness_RngMeasureTimesOut : ticking.cfg.wellFormed = true ∧ Quiet ticking ∧ ticking.fault = none ∧
    ClockInv ticking ∧ ticking.clk.started = true ∧ ticking.cpuI = true ∧ ticking.rng.cfg = some driver ∧
    ticking.rng.state = .idle ∧ ticking.edge.mode = .off ∧ ticking.meas = .noMeas ∧
    (0xFFFFFC5D : Quad) ≠ 0 ∧
    ticking.cfg.timeoutTicks driver.temp.toInt + (0xFFFFFC5D : Quad).toNat ≤ 2 ^ 32 :=
  ⟨by decide +kernel, quiet_of_flags rfl rfl rfl, rfl, by constructor <;> decide +kernel, rfl, rfl, rfl, rfl,
    rfl, rfl, by decide, by decide +kernel⟩

theorem witness_RngMeasureHangsOnStoppedClock : ranged.fault = none ∧ Quiet ranged ∧
    ranged.rng.cfg = some driver ∧ ranged.rng.state = .idle ∧ ranged.edge.mode = .off ∧ (1 : Quad) ≠ 0 ∧
    0 < ranged.cfg.timeoutTicks driver.temp.toInt ∧
    (ranged.cpuI = false ∨ ranged.t0.run = false ∨ ranged.t0.ie = false) :=
  ⟨rfl, quiet_of_flags rfl rfl rfl, by decide +kernel⟩

theorem witness_RngEdgeStampsByState : off.fault = none ∧ off.rng.state = .idle ∧
    (measuring .triggered none none (.inLoop 0)).rng.state = .triggered ∧
    (measuring .measuring (some 1) none (.inLoop 0)).rng.state = .measuring := by decide

theorem witness_StepKeepsRangingInv :
    let s := scripted 0x2200000000000000 (measuring .triggered (some 0) none (.inLoop 0))
    RangingInv s ∧ ∃ t, step s = .next t := by
  have e : ∀ d, some driver = some d → driver = d := fun d h => by simpa using h
  refine ⟨⟨by decide, by decide, by decide, by decide, by decide, fun d h => ?_, fun d h => ?_⟩,
    exists_next (by decide +kernel)⟩
  · obtain rfl := e d h; decide +kernel
  · obtain rfl := e d h; decide +kernel

theorem witness_RangingTransitions : Instr.rngPoll ≠ .reset ∧
    ∃ t, exec .rngPoll (measuring .triggered (some 0) none (.inLoop 0)) = .next t :=
  ⟨by decide, exists_next (by decide +kernel)⟩

theorem witness_AdvSplits : Quiet on ∧ on.fault = none ∧
    (0xFFFFFFFF : Quad).toNat + (0 : Quad).toNat < 2 ^ 32 := ⟨quiet_of_flags rfl rfl rfl, by decide⟩

theorem witness_AdvLetsTimePass : on.fault = none := rfl

theorem witness_PinSetDrivesInput : ranged.fault = none ∧ ((0 : Half) = 0 ∧ Level.low = .low) ∧
    ((1 : Half) = 1 ∧ Level.high = .high) ∧ (getPin ranged 7).dir = .output ∧
    (getPin ranged 8).dir = .input := by decide +kernel

theorem witness_IrqWordsSetMask : off.fault = none := rfl

theorem witness_ResetStateValues : cfgA.wellFormed = true ∧ quick.wellFormed = true ∧
    quick.decoder = some 5 := by decide +kernel

theorem witness_FaultedMachineRefusesAllButReset : (raiseFault 0x80 off).fault.isSome = true ∧
    Instr.clkNow ≠ .reset ∧ decode 0 ≠ .ok .reset := by decide

theorem witness_CmdEdgeFeedsDecoder : off.fault = none ∧ off.cfg.decoder = none ∧
    quickOff.fault = none ∧ quickOff.cfg.decoder.isSome = true := by decide

theorem witness_MailboxPutAndFetch : on.fault = none ∧ Quiet on := ⟨rfl, quiet_of_flags rfl rfl rfl⟩

/-- A turret whose servo `h` was detached. -/
def unhooked (h pitch : Nat) : State := detachSlot h slot10 (turret pitch)

theorem witness_DispatchUpAndDown : ((unhooked 1 36).fault = none ∧
      ((unhooked 1 36).srv.slots[1]?).map (·.attached) = some false ∧
      (unhooked 1 36).tur = some { pitch := 36, yaw := 0, pit := 1, roll := 2 }) ∧ Quiet (turret 36) ∧ (turret 36).fault = none ∧
    (turret 36).srv.slots[1]? = some slot10 ∧ slot10.attached = true ∧ (turret 36).cfg.pitchMin < 36 ∧
    35 ≤ (turret 35).cfg.pitchMin ∧ 174 < (turret 174).cfg.pitchMax ∧ (turret 175).cfg.pitchMax ≤ 175 ∧
    (turret 36).tur = some { pitch := 36, yaw := 0, pit := 1, roll := 2 } :=
  ⟨by decide +kernel, quiet_of_flags rfl rfl rfl, by decide⟩

theorem witness_DispatchPulsesYawAndRoll : (∀ h ∈ [0, 2], (unhooked h 100).fault = none ∧
      ((unhooked h 100).srv.slots[h]?).map (·.attached) = some false ∧
      (unhooked h 100).tur = some { pitch := 100, yaw := 0, pit := 1, roll := 2 }) ∧ Quiet (turret 100) ∧ (turret 100).fault = none ∧
    (turret 100).tur = some { pitch := 100, yaw := 0, pit := 1, roll := 2 } ∧
    (turret 100).srv.slots[0]? = some { slot10 with pin := 9 } ∧
    (turret 100).srv.slots[2]? = some { slot10 with pin := 11 } ∧ slot10.attached = true :=
  ⟨by decide +kernel, quiet_of_flags rfl rfl rfl, by decide⟩

theorem witness_DispatchIgnoresUnknownAndRepeats : (turret 100).fault = none ∧
    (turret 100).tur.isSome = true ∧ (0x45 : Byte).toNat ∉ [0x08, 0x5A, 0x52, 0x18, 0x1C, 0x16] ∧
    (0x16 : Byte).toNat ∈ [0x1C, 0x16] ∧ off.fault = none ∧ off.tur = none := by decide

theorem witness_TurBuildWiresTurret : (turret 100).tur.isSome = true ∧ ranged.tur = none ∧
    ranged.rng.cfg.isSome = true ∧ off.tur = none ∧ off.rng.cfg = none ∧
    off.cfg.speedOfSound (-547 : Half).toInt ≤ 0 ∧ 0 < off.cfg.speedOfSound (-546 : Half).toInt ∧
    off.srv.owned = false ∧ full.srv.owned = true ∧ full.tur = none ∧ full.rng.cfg = none ∧
    full.srv.slots.length ≤ 12 ∧ 12 < full.srv.slots.length + 3 ∧
    12 < (withSlots (List.replicate 10 slot9)).srv.slots.length + 3 ∧
    (withSlots (List.replicate 9 slot9)).srv.slots.length + 3 ≤ 12 := by decide +kernel

theorem witness_StepKeepsTurretInv :
    let s := scripted 0x3300000000000000 (turret 35)
    s.cfg.wellFormed = true ∧ TurretInv s ∧ ∃ t, step s = .next t := by
  have e : ∀ tu, (turret 35).tur = some tu → tu = { pitch := 35, yaw := 0, pit := 1, roll := 2 } := by
    intro tu h
    have h' : some ({ pitch := 35, yaw := 0, pit := 1, roll := 2 } : Turret) = some tu := h
    simpa using h'.symm
  refine ⟨by decide +kernel, ⟨fun tu h => ?_, fun tu h => ?_, by decide⟩, exists_next (by decide +kernel)⟩
  · rw [e tu h]; decide
  · rw [e tu h]; decide

theorem witness_WordsReturningNothingKeepResult :
    (Instr.rngEdge ∈ [Instr.clkTick, .srvIsr, .rngBegin, .rngPoll, .rngEdge, .irqOff, .irqOn, .cmdEdge] ∨
      (∃ n, Instr.rngEdge = .adv n) ∨ (∃ p l, Instr.rngEdge = .pinSet p l) ∨
      (∃ a c r, Instr.rngEdge = .mbxPut a c r)) ∧ ∃ t, exec .rngEdge off = .next t :=
  ⟨.inl (by decide), exists_next (by decide +kernel)⟩

theorem witness_StepKeepsClockInv : (scripted 0x3300000000000000 clocked).cfg.wellFormed = true ∧
    ClockInv (scripted 0x3300000000000000 clocked) ∧
    ∃ t, step (scripted 0x3300000000000000 clocked) = .next t :=
  ⟨by decide +kernel, by constructor <;> decide +kernel, exists_next (by decide +kernel)⟩

theorem witness_StepKeepsFaultAndTraceInv :
    let s := scripted 0x3300000000000000 off
    FaultInv s ∧ TraceInv s ∧ ∃ t, step s = .next t :=
  ⟨by constructor <;> decide, by constructor <;> decide, exists_next (by decide +kernel)⟩

theorem witness_ResetMeetsInvariants : State.build cfgA 0 = some State.reset ∧
    ({ cfgA with foldThreshold := 255 } : Config).wellFormed = false := by decide +kernel

/-- An attached servo pin that `rng.new` made the echo pin. -/
def echoOnServo : State := constructDriver 7 20 10 (withSlots [slot10])

/-- A pin that nothing writes, and an input pin that an attached slot names. -/
theorem witness_PinLevelsHaveTheirWriters :
    (Instr.irqOn ≠ .reset ∧ (∀ l, Instr.irqOn ≠ .pinSet 5 l) ∧
      (∀ sl ∈ mixed.srv.slots, sl.attached = true → sl.pin ≠ 5) ∧
      (∀ d, mixed.rng.cfg = some d → d.trig ≠ 5) ∧ ∃ t, exec .irqOn mixed = .next t) ∧
    (Instr.srvIsr ≠ .reset ∧ (∀ l, Instr.srvIsr ≠ .pinSet 10 l) ∧
      (∃ sl ∈ echoOnServo.srv.slots, sl.attached = true ∧ sl.pin = 10) ∧
      (getPin echoOnServo 10).dir = .input ∧
      (∃ t, exec .srvIsr echoOnServo = .next t ∧ (getPin t 10).dir = .input) ∧
      ∀ yaw pitch roll trig echo temp, Instr.srvIsr ≠ .turBuild yaw pitch roll trig echo temp) :=
  ⟨⟨by decide, (by intro l h; cases h), by decide +kernel, (by intro d h; cases h),
      exists_next (by decide +kernel)⟩,
    by decide, (by intro l h; cases h), ⟨slot10, by decide +kernel, rfl, rfl⟩, by decide +kernel,
    ⟨_, eq_next rfl, by decide +kernel⟩, (by intro _ _ _ _ _ _ h; cases h)⟩

end Sys2Proof.Tests
end

section
/-! The machine right after reset (10_state.md R42): when a configuration has one, and what the elements
that are computed rather than written down hold there (`DEC` and the 256 pins). -/

namespace Sys2Proof.Machine

/-- A well-formed configuration has a machine, for every value of the unspecified `T1.CMP` (R9, R271). -/
theorem build_of_wellFormed {c : Config} (cmp : Half) (hc : c.wellFormed = true) :
    State.build c cmp = some (State.afterReset c cmp [] 0) :=
  if_pos hc

section AfterReset

variable (c : Config) (cmp : Half) (script : List Word) (draws : Nat)

@[simp] theorem getPin_afterReset (p : Byte) :
    getPin (State.afterReset c cmp script draws) p = { dir := .input, level := .low } :=
  Vector.getElem_replicate p.isLt

theorem dec_afterReset_of_decoder {init : Nat} (h : c.decoder = some init) :
    (State.afterReset c cmp script draws).dec = init := by
  simp [State.afterReset, h]

/-- R35: the two's complement reading of the channel that reset writes. -/
theorem channel_afterReset_toInt :
    (State.afterReset c cmp script draws).srv.channel.toInt = -1 := by
  have hbyte : (-1 : Byte).toInt = -1 := by decide
  exact hbyte

end AfterReset

/-- Settles O47: the machine is `State.afterReset`, whose elements are R42's own values; the decoder's state,
the channel and the pins are read by their lemmas. -/
theorem resetStateValues : Obligations.ResetStateValues := by
  intro c cmp hc
  have hdec : ∀ init, c.decoder = some init → (State.afterReset c cmp [] 0).dec = init :=
    fun _ => dec_afterReset_of_decoder c cmp [] 0
  have hchannel := channel_afterReset_toInt c cmp [] 0
  have hpins := getPin_afterReset c cmp [] 0
  refine ⟨_, build_of_wellFormed cmp hc, ?cfg, ?t1Cmp, hdec, ?cpuI, ?fault, ?res, ?t, ?trace, ?t0, ?clk,
    ?t1, ?owned, ?slots, hchannel, ?rng, ?meas, ?edge, hpins, ?mbx, ?tur⟩
  case t1 => exact ⟨rfl, rfl, rfl, rfl⟩
  all_goals rfl

end Sys2Proof.Machine
end

section
/-! The word `clk.now` (40_clock.md R105). -/

namespace Sys2Proof.Machine

theorem exec_clkNow (s : State) : exec .clkNow s = execClkNow s := rfl

/-- The value is read before the `DISPATCH()` that ends `now()`'s critical section, so an interrupt taken
there does not enter it. -/
theorem execClkNow_of_unfaulted {s : State} (hf : s.fault = none) :
    execClkNow s = .next ((dispatch s).setRes (.u32 (nowValue s))) := by
  unfold execClkNow
  rw [unlessFaulted_of_none hf, now_eq]

/-- Settles O14: the word is the closed value of its row; a quiet state leaves nothing for the `DISPATCH()`
inside `now()` to take, so only `RES` changes. -/
theorem clkNowReturnsCount : Obligations.ClkNowReturnsCount := by
  unfold Obligations.ClkNowReturnsCount
  refine ⟨by decide, fun s hq hf => ?_⟩
  calc exec .clkNow s
      = .next ((dispatch s).setRes (.u32 (nowValue s))) := by
        rw [exec_clkNow, execClkNow_of_unfaulted hf]
    _ = .next (s.setRes (.u32 (nowValue s))) := by rw [dispatch_of_quiet hq]
    _ = .next { s with res := .u32 (s.clk.counter + s.clk.part.setWidth 32) } := rfl

end Sys2Proof.Machine
end

section
/-! The words of the servo multiplexer (41_servo.md): the hand-over of T1 (R122), the checks of the words
that take a handle (R121), `srv.writeus` (R128, R130) and `srv.detach` (R132). -/

namespace Sys2Proof.Machine

/-! ### The hand-over of T1 (R122) -/

theorem exec_srvInit (s : State) : exec .srvInit s = execSrvInit s := rfl

theorem execSrvInit_of_not_owned {s : State} (hf : s.fault = none) (ho : s.srv.owned = false) :
    execSrvInit s = .next ((s.setSrv { s.srv with owned := true }).setRes .unit) := by
  simp [execSrvInit, hf, ho]

theorem execSrvInit_of_owned {s : State} (hf : s.fault = none) (ho : s.srv.owned = true) :
    execSrvInit s = .refused .alreadyInitialized := by
  simp [execSrvInit, hf, ho]

/-- Settles O17: the word is the closed value of its row, and the ownership flag decides between the
hand-over and the refusal. -/
theorem srvInitHandsTimerOver : Obligations.SrvInitHandsTimerOver := by
  unfold Obligations.SrvInitHandsTimerOver
  refine ⟨by decide, fun s hf => ⟨fun ho => ?first, fun ho => ?second⟩⟩
  case first =>
    rw [exec_srvInit, execSrvInit_of_not_owned hf ho]
    rfl
  case second => rw [exec_srvInit, execSrvInit_of_owned hf ho]

/-! ### The words that take a handle (R121) -/

theorem exec_srvAttach (h : Byte) (s : State) : exec (.srvAttach h) s = execSrvAttach h s := rfl

theorem exec_srvAttachl (h : Byte) (lo hi : Half) (s : State) :
    exec (.srvAttachl h lo hi) s = execSrvAttachl h lo hi s := rfl

theorem exec_srvWrite (h : Byte) (value : Half) (s : State) :
    exec (.srvWrite h value) s = execSrvWrite h value s := rfl

theorem exec_srvWriteus (h : Byte) (us : Half) (s : State) :
    exec (.srvWriteus h us) s = execSrvWriteus h us s := rfl

theorem exec_srvDetach (h : Byte) (s : State) : exec (.srvDetach h) s = execSrvDetach h s := rfl

/-- The words that take a handle, with whether the slot must be attached (`true`) or detached (`false`), and
the handle. -/
inductive HandleWord : Instr → Bool → Byte → Prop where
  | attach (h : Byte) : HandleWord (.srvAttach h) false h
  | attachl (h : Byte) (lo hi : Half) : HandleWord (.srvAttachl h lo hi) false h
  | write (h : Byte) (value : Half) : HandleWord (.srvWrite h value) true h
  | writeus (h : Byte) (us : Half) : HandleWord (.srvWriteus h us) true h
  | detach (h : Byte) : HandleWord (.srvDetach h) true h

namespace HandleWord

variable {i : Instr} {need : Bool} {h : Byte} {s : State}

/-- Each of the five words is some operation behind the checks of R121. -/
theorem exec_eq (w : HandleWord i need h) (hf : s.fault = none) :
    ∃ op, exec i s = withHandle need h.toNat s op := by
  cases w with
  | attach => exact ⟨_, by rw [exec_srvAttach, execSrvAttach, unlessFaulted_of_none hf]⟩
  | attachl => exact ⟨_, by rw [exec_srvAttachl, execSrvAttachl, unlessFaulted_of_none hf]⟩
  | write => exact ⟨_, by rw [exec_srvWrite, execSrvWrite, unlessFaulted_of_none hf, writeAngle]⟩
  | writeus => exact ⟨_, by rw [exec_srvWriteus, execSrvWriteus, unlessFaulted_of_none hf, writeWidth]⟩
  | detach => exact ⟨_, by rw [exec_srvDetach, execSrvDetach, unlessFaulted_of_none hf]⟩

theorem exec_of_unknown (w : HandleWord i need h) (hf : s.fault = none)
    (hn : s.srv.slots[h.toNat]? = none) : exec i s = .refused .noSuchHandle := by
  obtain ⟨op, e⟩ := w.exec_eq hf
  rw [e, withHandle_unknown op hn]

theorem exec_of_wrong {sl : Slot} (w : HandleWord i need h) (hf : s.fault = none)
    (hs : s.srv.slots[h.toNat]? = some sl) (ha : sl.attached = !need) :
    exec i s = .refused .wrongTypestate := by
  obtain ⟨op, e⟩ := w.exec_eq hf
  have hne : sl.attached ≠ need := by simp [ha]
  rw [e, withHandle_wrong op hs hne]

end HandleWord

/-- Settles O22: a handle from the count of slots on names none, and the two refusals are those of every
`HandleWord`. -/
theorem handleWordsCheckHandle : Obligations.HandleWordsCheckHandle := by
  unfold Obligations.HandleWordsCheckHandle
  refine fun s h x y hf => ⟨fun hle => ?unknown, fun sl hs ha => ?attached, fun sl hs ha => ?detached⟩
  case unknown =>
    have hn : s.srv.slots[h.toNat]? = none := List.getElem?_eq_none hle
    exact ⟨(HandleWord.attach h).exec_of_unknown hf hn, (HandleWord.attachl h x y).exec_of_unknown hf hn,
      (HandleWord.write h x).exec_of_unknown hf hn, (HandleWord.writeus h x).exec_of_unknown hf hn,
      (HandleWord.detach h).exec_of_unknown hf hn⟩
  case attached =>
    exact ⟨(HandleWord.attach h).exec_of_wrong hf hs ha, (HandleWord.attachl h x y).exec_of_wrong hf hs ha⟩
  case detached =>
    exact ⟨(HandleWord.write h x).exec_of_wrong hf hs ha, (HandleWord.writeus h x).exec_of_wrong hf hs ha,
      (HandleWord.detach h).exec_of_wrong hf hs ha⟩

/-! ### Words with unused fields (30_encoding.md R81) -/

theorem append_zero_append_zero {n : Nat} (x : BitVec n) (k l : Nat) :
    x ++ 0#k ++ 0#l = (x ++ 0#(k + l)).cast (Nat.add_assoc n k l).symm := by
  rw [BitVec.append_assoc, BitVec.zero_append_zero]

theorem packWord_zero_ab (op h : Byte) (c : Half) : packWord op h 0 0 c = op ++ h ++ 0#32 ++ c :=
  congrArg (· ++ c) (append_zero_append_zero (op ++ h) 16 16)

theorem packWord_zero_abc (op h : Byte) : packWord op h 0 0 0 = op ++ h ++ 0#48 :=
  (packWord_zero_ab op h 0).trans (append_zero_append_zero (op ++ h) 32 16)

/-! ### `srv.writeus` (R128, R130) -/

theorem clamp_eq_max_min {lo hi : Nat} (v : Nat) (hle : lo ≤ hi) : clamp v lo hi = max lo (min v hi) := by
  unfold clamp
  split
  · omega
  · split <;> omega

theorem widthTicks_of_ordered (c : Config) {sl : Slot} (u : Nat) (hle : sl.minUs.toNat ≤ sl.maxUs.toNat) :
    widthTicks c sl u = c.usToTicks (max sl.minUs.toNat (min u sl.maxUs.toNat) - c.trimUs) := by
  rw [widthTicks, satSub, clamp_eq_max_min u hle]

theorem exec_srvWriteus_of_attached {s : State} {h : Byte} {sl : Slot} (us : Half) (hf : s.fault = none)
    (hs : s.srv.slots[h.toNat]? = some sl) (ha : sl.attached = true) :
    exec (.srvWriteus h us) s = .next (storeTicks h.toNat sl (widthTicks s.cfg sl us.toNat) s) := by
  rw [exec_srvWriteus, execSrvWriteus, unlessFaulted_of_none hf, writeWidth, withHandle_of_slot _ hs ha]

/-- Settles O25: the refusals are those of a `HandleWord`; in a quiet state the store's critical section
takes no interrupt, and ordered limits make the clamp a maximum of a minimum. -/
theorem srvWriteusStoresWidth : Obligations.SrvWriteusStoresWidth := by
  unfold Obligations.SrvWriteusStoresWidth
  refine ⟨fun h us => packWord_zero_ab 0x15 h us, fun s h us hf => ?_⟩
  have w : HandleWord (.srvWriteus h us) true h := .writeus h us
  refine ⟨w.exec_of_unknown hf, fun sl hs => ⟨w.exec_of_wrong hf hs, fun hq ha hle => ?_⟩⟩
  rw [exec_srvWriteus_of_attached us hf hs ha, storeTicks_of_quiet _ _ _ hq, widthTicks_of_ordered _ _ hle]
  rfl

/-! ### `srv.detach` (R132) -/

theorem exec_srvDetach_of_attached {s : State} {h : Byte} {sl : Slot} (hf : s.fault = none)
    (hs : s.srv.slots[h.toNat]? = some sl) (ha : sl.attached = true) :
    exec (.srvDetach h) s = .next (detachSlot h.toNat sl s) := by
  rw [exec_srvDetach, execSrvDetach, unlessFaulted_of_none hf, withHandle_of_slot _ hs ha]

/-- An entry that fails the test counts no more than a missing one: a detached slot leaves the question of
whether some slot is attached to the others. -/
theorem any_set_eq_any_eraseIdx {α : Type} (p : α → Bool) {x : α} (hx : p x = false) (l : List α) (n : Nat) :
    (l.set n x).any p = (l.eraseIdx n).any p := by
  induction l generalizing n with
  | nil => rfl
  | cons y ys ih =>
    cases n with
    | zero => simp [hx]
    | succ n => simp [ih]

/-- Settles O26: the refusals are those of a `HandleWord`; the slots attached after the detach are those of
the others, and T1's enable is kept exactly when there is one. -/
theorem srvDetachStopsLast : Obligations.SrvDetachStopsLast := by
  unfold Obligations.SrvDetachStopsLast
  refine ⟨fun h => packWord_zero_abc 0x16 h, fun s h hf => ?_⟩
  have w : HandleWord (.srvDetach h) true h := .detach h
  refine ⟨w.exec_of_unknown hf, fun sl hs => ⟨w.exec_of_wrong hf hs, fun ha => ?_⟩⟩
  have hany := any_set_eq_any_eraseIdx (·.attached) (x := { sl with attached := false }) rfl
    s.srv.slots h.toNat
  rw [exec_srvDetach_of_attached hf hs ha, detachSlot_eq, hany]
  cases (s.srv.slots.eraseIdx h.toNat).any (·.attached) with
  | true => rw [Bool.and_true]; rfl
  | false => rw [Bool.and_false]; rfl

end Sys2Proof.Machine
end

section
/-! The word `rng.edge` (42_ranging.md R166). -/

namespace Sys2Proof.Machine

theorem exec_rngEdge (s : State) : exec .rngEdge s = execRngEdge s := rfl

/-- R84, R166: the word runs the body of H_EDGE; saving, clearing and restoring `CPU.I` is not seen. -/
theorem execRngEdge_of_unfaulted {s : State} (hf : s.fault = none) :
    execRngEdge s = .next (edgeBody s) := by
  have hbody : directBody edgeBody s = edgeBody s := directBody_runBody .edge s
  rw [execRngEdge, unlessFaulted_of_none hf, hbody]

theorem edgeBody_of_triggered {s : State} (h : s.rng.state = .triggered) :
    edgeBody s = s.setRng { s.rng with trigTime := some (nowValue s) } := by
  simp [edgeBody, h]

theorem edgeBody_of_measuring {s : State} (h : s.rng.state = .measuring) :
    edgeBody s = s.setRng { s.rng with echoTime := some (nowValue s) } := by
  simp [edgeBody, h]

theorem edgeBody_of_idle {s : State} (h : s.rng.state = .idle) : edgeBody s = s := by
  simp [edgeBody, h]

/-- Settles O39: the word is the closed value of its row, and its effect is that of the handler body, which
the ranging state decides. -/
theorem rngEdgeStampsByState : Obligations.RngEdgeStampsByState := by
  unfold Obligations.RngEdgeStampsByState
  refine ⟨by decide, fun s hf => ?_⟩
  have hexec : exec .rngEdge s = .next (edgeBody s) := by
    rw [exec_rngEdge, execRngEdge_of_unfaulted hf]
  refine ⟨fun h => ?triggered, fun h => ?measuring, fun h => ?idle⟩
  case triggered =>
    rw [hexec, edgeBody_of_triggered h]
    rfl
  case measuring =>
    rw [hexec, edgeBody_of_measuring h]
    rfl
  case idle => rw [hexec, edgeBody_of_idle h]

end Sys2Proof.Machine
end

section
/-! The mailbox (44_host.md R206, R208) and the commands that the dispatcher ignores (R219). -/

namespace Sys2Proof.Machine

/-! ### The operands of format ABC (30_encoding.md R82) -/

theorem byteOperand_setWidth (b : Byte) : byteOperand (b.setWidth 16) = some b := by
  have hfits : fitsByte (b.setWidth 16) = true := by
    simp only [fitsByte, decide_eq_true_eq]
    bv_omega
  rw [byteOperand, if_pos hfits, BitVec.setWidth_setWidth_of_le b (by decide), BitVec.setWidth_eq]

theorem flagOperand_ite (r : Bool) : flagOperand (if r then 1 else 0) = some r := by
  cases r <;> rfl

/-- A decoded command is read back from its operands. -/
theorem commandOperands_of_command (a c : Byte) (r : Bool) :
    commandOperands (a.setWidth 16) (c.setWidth 16) (if r then 1 else 0) =
      some { address := a, command := c, rep := r } := by
  simp only [commandOperands, byteOperand_setWidth, flagOperand_ite]

/-! ### The mailbox (R206, R208) -/

theorem exec_mbxPut (a c r : Half) (s : State) : exec (.mbxPut a c r) s = execMbxPut a c r s := rfl

theorem exec_mbxFetch (s : State) : exec .mbxFetch s = execMbxFetch s := rfl

/-- The body of H_CMD, run directly, leaves `CPU.I` as it was. -/
theorem execMbxPut_of_unfaulted {s : State} (a c : Byte) (r : Bool) (hf : s.fault = none) :
    execMbxPut (a.setWidth 16) (c.setWidth 16) (if r then 1 else 0) s =
      .next (s.setMbx (some { address := a, command := c, rep := r })) := by
  rw [execMbxPut, unlessFaulted_of_none hf, commandOperands_of_command]
  rfl

/-- The mailbox is read before the `DISPATCH()` that ends the critical section. -/
theorem execMbxFetch_of_unfaulted {s : State} (hf : s.fault = none) :
    execMbxFetch s = .next ((dispatch (s.setMbx none)).setRes (fetchResult s.mbx)) := by
  rw [execMbxFetch, unlessFaulted_of_none hf]
  rfl

theorem setMbx_quiet {s : State} (h : Quiet s) (v : Option Command) : Quiet (s.setMbx v) :=
  h.congr rfl rfl rfl rfl rfl

/-- Settles O50: the word is the closed value of its row; emptying the mailbox of a quiet state leaves it
quiet, so the critical section of `fetch()` takes no interrupt. -/
theorem mailboxPutAndFetch : Obligations.MailboxPutAndFetch := by
  unfold Obligations.MailboxPutAndFetch
  refine ⟨by decide, fun s hf => ⟨fun a c r => ?put, fun hq => ?fetch⟩⟩
  case put =>
    rw [exec_mbxPut, execMbxPut_of_unfaulted a c r hf]
    rfl
  case fetch =>
    rw [exec_mbxFetch, execMbxFetch_of_unfaulted hf, dispatch_of_quiet (setMbx_quiet hq none)]
    rfl

/-! ### The dispatcher (R212, R219) -/

theorem exec_dispCmd (a c r : Half) (s : State) : exec (.dispCmd a c r) s = execDispCmd a c r s := rfl

theorem exec_commandWord_of_turret {s : State} {tu : Turret} (a c : Byte) (r : Bool) (hf : s.fault = none)
    (ht : s.tur = some tu) :
    exec (commandWord a c r) s = andThen (dispatchCommand c r tu s) fun s1 => .next (s1.setRes .unit) := by
  rw [commandWord, exec_dispCmd, execDispCmd, unlessFaulted_of_none hf, commandOperands_of_command, ht]

theorem exec_commandWord_of_noTurret {s : State} (a c : Byte) (r : Bool) (hf : s.fault = none)
    (ht : s.tur = none) : exec (commandWord a c r) s = .refused .noTurret := by
  rw [commandWord, exec_dispCmd, execDispCmd, unlessFaulted_of_none hf, commandOperands_of_command, ht]

/-- A command without an actuator effect still completes, with `RES` cleared to unit. -/
theorem exec_commandWord_of_ignored {s : State} {a c : Byte} {r : Bool} (hf : s.fault = none)
    (ht : s.tur.isSome = true) (hc : ∀ tu, dispatchCommand c r tu s = .next s) :
    exec (commandWord a c r) s = .next (s.setRes .unit) := by
  obtain ⟨tu, htu⟩ := Option.isSome_iff_exists.mp ht
  rw [exec_commandWord_of_turret a c r hf htu, hc, andThen_next']

theorem dispatchCommand_of_unknown {c : Byte} (hc : c.toNat ∉ [0x08, 0x5A, 0x52, 0x18, 0x1C, 0x16])
    (r : Bool) (tu : Turret) (s : State) : dispatchCommand c r tu s = .next s := by
  have hne : ∀ k : Byte, k.toNat ∈ [0x08, 0x5A, 0x52, 0x18, 0x1C, 0x16] → c ≠ k := fun k hk e => hc (e ▸ hk)
  rw [dispatchCommand, if_neg (hne irUp (by decide)), if_neg (hne irDown (by decide)),
    if_neg (hne irLeft (by decide)), if_neg (hne irRight (by decide)), if_neg (hne irOk (by decide)),
    if_neg (hne irStar (by decide))]

/-- R216, R217: only a first OK or STAR fires. -/
theorem dispatchCommand_of_repeatedFire {c : Byte} (hc : c = irOk ∨ c = irStar) (tu : Turret) (s : State) :
    dispatchCommand c true tu s = .next s := by
  obtain rfl | rfl := hc
  · rfl
  · rfl

theorem eq_fireCode_of_toNat_mem {c : Byte} (h : c.toNat ∈ [0x1C, 0x16]) : c = irOk ∨ c = irStar := by
  have hmem : c.toNat = 0x1C ∨ c.toNat = 0x16 := by simpa using h
  exact hmem.imp BitVec.eq_of_toNat_eq BitVec.eq_of_toNat_eq

/-- Settles O53: a code beside the six falls through every test of the dispatch, and the repeat flag stops a
fire command at its own; without a turret the dispatch is not reached. -/
theorem dispatchIgnoresUnknownAndRepeats : Obligations.DispatchIgnoresUnknownAndRepeats := by
  unfold Obligations.DispatchIgnoresUnknownAndRepeats
  intro s a b r hf
  refine ⟨fun ht hb => ?unknown, fun ht hb => ?repeated, fun ht => ?noTurret⟩
  case unknown => exact exec_commandWord_of_ignored hf ht (dispatchCommand_of_unknown hb r · s)
  case repeated =>
    exact exec_commandWord_of_ignored hf ht
      (dispatchCommand_of_repeatedFire (eq_fireCode_of_toNat_mem hb) · s)
  case noTurret => exact exec_commandWord_of_noTurret a b r hf ht

end Sys2Proof.Machine
end

section
/-! The faulted state (60_exceptions.md R241, R242): which words write `FAULT`, and what a faulted machine
still does. -/

namespace Sys2Proof.Machine

/-! ### The faulted machine (R242) -/

/-- Every word but `reset` is guarded by the test of `FAULT`. -/
theorem exec_eq_unlessFaulted {i : Instr} (hi : i ≠ .reset) :
    ∃ op, ∀ s, exec i s = unlessFaulted s op := by
  cases i
  case reset => exact absurd rfl hi
  all_goals exact ⟨_, fun _ => rfl⟩

theorem exec_of_faulted {i : Instr} {s : State} (hi : i ≠ .reset) (hf : s.fault.isSome = true) :
    exec i s = .refused .faulted := by
  obtain ⟨op, hop⟩ := exec_eq_unlessFaulted hi
  rw [hop, unlessFaulted_of_faulted hf]

theorem applyWord_of_error {w : Word} {e : DecodeError} (hw : decode w = .error e) (s : State) :
    applyWord w s = .refused (.reservedWord e) := by
  simp [applyWord, hw]

theorem applyWord_of_ok {w : Word} {i : Instr} (hw : decode w = .ok i) (s : State) :
    applyWord w s = andThen (exec i s) fun s1 => .next (dispatch s1) := by
  simp [applyWord, hw]

theorem quiet_of_faulted {s : State} (hf : s.fault.isSome = true) : Quiet s := by
  intro _ hnone
  simp [hnone] at hf

/-- Settles O48: a word that is not `reset` is refused by the decoder or by the guard before its meaning,
and a faulted machine is quiet. -/
theorem faultedMachineRefusesAllButReset : Obligations.FaultedMachineRefusesAllButReset := by
  unfold Obligations.FaultedMachineRefusesAllButReset
  refine ⟨fun _ _ => rfl, fun s hf => ⟨fun i hi => exec_of_faulted hi hf, fun w hw => ?word,
    dispatch_of_quiet (quiet_of_faulted hf)⟩⟩
  case word =>
    cases hd : decode w with
    | error e => exact ⟨_, applyWord_of_error hd s⟩
    | ok i =>
      have hi : i ≠ .reset := fun h => hw (h ▸ hd)
      exact ⟨.faulted, by rw [applyWord_of_ok hd, exec_of_faulted hi hf, andThen_refused]⟩

/-! ### What the shared operations leave of `FAULT` -/

@[simp] theorem dispatch_fault (s : State) : (dispatch s).fault = s.fault := (dispatch_frame s).fault

@[simp] theorem advance_fault (n : Nat) (s : State) : (advance n s).fault = s.fault :=
  (advance_frame n s).fault

theorem critical_fault {α : Type} {body : State → α × State} (hb : ∀ s, (body s).2.fault = s.fault)
    (s : State) : (critical body s).2.fault = s.fault :=
  (dispatch_fault _).trans (hb _)

@[simp] theorem now_fault (s : State) : (now s).2.fault = s.fault := dispatch_fault s

theorem directBody_fault {body : State → State} (hb : ∀ s, (body s).fault = s.fault) (s : State) :
    (directBody body s).fault = s.fault := hb _

/-! ### The servo multiplexer -/

@[simp] theorem registerServo_fault (pin : Byte) (s : State) : (registerServo pin s).fault = s.fault := by
  rcases registerServo_cases pin s with ⟨-, h⟩ | ⟨-, -, h⟩ | ⟨-, -, h⟩ <;> rw [h] <;> rfl

@[simp] theorem attachSlot_fault (h : Nat) (sl : Slot) (lo hi : Half) (s : State) :
    (attachSlot h sl lo hi s).fault = s.fault := by
  rw [attachSlot_eq]
  rfl

@[simp] theorem detachSlot_fault (h : Nat) (sl : Slot) (s : State) :
    (detachSlot h sl s).fault = s.fault := by
  rw [detachSlot_eq]
  rfl

@[simp] theorem storeTicks_fault (h : Nat) (sl : Slot) (v : Nat) (s : State) :
    (storeTicks h sl v s).fault = s.fault := (storeTicks_frame h sl v s).fault

theorem writeAngle_fault {h value : Nat} {s t : State} (e : writeAngle h value s = .next t) :
    t.fault = s.fault := by
  obtain ⟨sl, -, -, rfl⟩ := writeAngle_next e
  exact storeTicks_fault _ _ _ _

theorem writeWidth_fault {h us : Nat} {s t : State} (e : writeWidth h us s = .next t) :
    t.fault = s.fault := by
  obtain ⟨sl, -, -, rfl⟩ := writeWidth_next e
  exact storeTicks_fault _ _ _ _

/-! ### The ranging unit -/

theorem beginMeasure_fault (d : Driver) (s : State) : (beginMeasure d s).fault = s.fault := by
  obtain ⟨_, -, frame⟩ := beginMeasure_frame d s
  exact frame.fault

/-- R241: `rng.begin` raises the fault exactly when a measurement is in flight. -/
theorem rngBegin_fault {s t : State} (e : rngBegin s = .next t) :
    (s.rng.state = .idle ∧ t.fault = s.fault) ∨
    (s.rng.state ≠ .idle ∧ t.fault = some faultRangingBusy) := by
  obtain ⟨d, -, ⟨hidle, rfl⟩ | ⟨hbusy, rfl⟩⟩ := rngBegin_next e
  · exact .inl ⟨hidle, (beginMeasure_fault d _).trans (dispatch_fault s)⟩
  · exact .inr ⟨hbusy, rfl⟩

theorem rearmIfDue_fault (s : State) : (rearmIfDue s).2.fault = s.fault := by
  obtain ⟨-, ⟨-, -, h⟩ | ⟨-, h⟩⟩ := rearmIfDue_cases s
  · rw [h]
    rfl
  · rw [h]

theorem pollPass_fault (start : Quad) (s : State) : (pollPass start s).fault = s.fault := by
  have hrearm : (critical rearmIfDue (now s).2).2.fault = s.fault :=
    (critical_fault rearmIfDue_fault _).trans (now_fault s)
  unfold pollPass
  dsimp only
  split
  · exact now_fault s
  · split
    · exact hrearm
    · exact hrearm

theorem rngPoll_fault {s t : State} (e : rngPoll s = .next t) : t.fault = s.fault := by
  obtain ⟨start, -, rfl⟩ := rngPoll_next e
  exact pollPass_fault start s

theorem rngEnd_fault {s t : State} (e : rngEnd s = .next t) : t.fault = s.fault := by
  obtain ⟨-, rfl⟩ := rngEnd_next e
  rw [endMeasure_eq]
  exact dispatch_fault _

theorem measureLoop_fault {k n : Nat} {s t : State} (e : measureLoop k n s = .next t) :
    t.fault = s.fault :=
  measureLoop_keeps (P := fun u => u.fault = s.fault) (fun _ _ h e => (rngPoll_fault e).trans h)
    (fun u h => (dispatch_fault u).trans h) (fun m u h => (advance_fault m u).trans h)
    (fun _ _ h e => (rngEnd_fault e).trans h) k n s t rfl e

/-- R241: a fault that `rng.measure` ends in is the one its `rng.begin` raised. -/
theorem measure_fault {n : Nat} {s t : State} (e : measure n s = .next t) :
    t.fault = none ∨ rngBegin s = .next t := by
  obtain ⟨-, b, hb, ⟨-, rfl⟩ | ⟨hnone, hloop⟩⟩ := measure_next e
  · exact .inr hb
  · exact .inl ((measureLoop_fault hloop).trans ((dispatch_fault b).trans hnone))

theorem constructDriver_fault (trig : Byte) (temp : Half) (echo : Byte) (s : State) :
    (constructDriver trig temp echo s).fault = s.fault := by
  obtain ⟨_, h, -⟩ := constructDriver_eq trig temp echo s
  rw [h]
  rfl

/-! ### The environment and the host side -/

theorem drivePin_fault (p : Byte) (l : Level) (s : State) : (drivePin p l s).fault = s.fault := by
  rw [drivePin_eq]
  rfl

theorem cmdEdgeBody_fault (s : State) : (cmdEdgeBody s).fault = s.fault := by
  unfold cmdEdgeBody storeOutcome
  dsimp only
  split <;> rfl

theorem delayMs_fault (k : Nat) (s : State) : (delayMs k s).fault = s.fault := advance_fault _ s

theorem movePitch_fault {new : Nat} {tu : Turret} {s t : State} (e : movePitch new tu s = .next t) :
    t.fault = s.fault := by
  obtain ⟨s1, hwrite, rfl⟩ := movePitch_next e
  calc (delayMs s1.cfg.pitchSettleMs s1).fault
      = s1.fault := delayMs_fault _ s1
    _ = (s.setTur (some { tu with pitch := new })).fault := writeAngle_fault hwrite
    _ = s.fault := rfl

theorem pulseServo_fault {h us ms : Nat} {s t : State} (e : pulseServo h us ms s = .next t) :
    t.fault = s.fault := by
  obtain ⟨s1, hout, hback⟩ := pulseServo_next e
  calc t.fault = (delayMs ms s1).fault := writeWidth_fault hback
    _ = s1.fault := delayMs_fault ms s1
    _ = s.fault := writeWidth_fault hout

theorem dispatchCommand_fault {code : Byte} {rep : Bool} {tu : Turret} {s t : State}
    (e : dispatchCommand code rep tu s = .next t) : t.fault = s.fault := by
  obtain rfl | ⟨_, hmove, -⟩ | ⟨_, _, _, -, hpulse⟩ := dispatchCommand_next e
  · rfl
  · exact movePitch_fault hmove
  · exact pulseServo_fault hpulse

theorem buildServo_fault (pin : Byte) (s : State) : (buildServo pin s).1.fault = s.fault := by
  obtain ⟨_, h, -⟩ | ⟨-, -, _, h, -⟩ := buildServo_cases pin s
  · rw [h]
    rfl
  · rw [h]
    rfl

theorem buildTurret_fault (yaw pitch roll trig echo : Byte) (temp : Half) (s : State) :
    (buildTurret yaw pitch roll trig echo temp s).fault = s.fault := by
  have hyaw := buildServo_fault yaw s
  unfold buildTurret
  split
  next s1 h1 => rwa [h1] at hyaw
  next s1 hy h1 =>
    rw [h1] at hyaw
    have hpitch := (buildServo_fault pitch s1).trans hyaw
    split
    next s2 h2 => rwa [h2] at hpitch
    next s2 hp h2 =>
      rw [h2] at hpitch
      have hroll := (buildServo_fault roll s2).trans hpitch
      split
      next s3 h3 => rwa [h3] at hroll
      next s3 hr h3 =>
        rw [h3] at hroll
        exact (constructDriver_fault trig temp echo s3).trans hroll

/-! ### The words -/

theorem fault_of_next_eq {s u t : State} (e : (.next u : Out) = .next t) (hu : u.fault = s.fault) :
    t.fault = s.fault := by
  obtain rfl : u = t := by simpa using e
  exact hu

/-- A word that outside the faulted state always completes, with the effect `f`. -/
theorem fault_of_unlessFaulted_next {f : State → State} {s t : State}
    (e : unlessFaulted s (fun u => .next (f u)) = .next t) (hf : (f s).fault = s.fault) :
    t.fault = s.fault :=
  fault_of_next_eq (unlessFaulted_next e).2 hf

theorem execClkTick_fault {s t : State} (e : execClkTick s = .next t) : t.fault = s.fault :=
  fault_of_unlessFaulted_next e (directBody_fault (fun u => (tickBody_frame u).fault) s)

theorem execSrvIsr_fault {s t : State} (e : execSrvIsr s = .next t) : t.fault = s.fault :=
  fault_of_unlessFaulted_next e (directBody_fault (fun u => (isrBody_frame u).fault) s)

theorem execRngEdge_fault {s t : State} (e : execRngEdge s = .next t) : t.fault = s.fault :=
  fault_of_unlessFaulted_next e (directBody_fault (fun u => (edgeBody_frame u).fault) s)

theorem execSrvNew_fault {pin : Byte} {s t : State} (e : execSrvNew pin s = .next t) :
    t.fault = s.fault :=
  fault_of_unlessFaulted_next e (registerServo_fault pin s)

theorem execAdv_fault {n : Quad} {s t : State} (e : execAdv n s = .next t) : t.fault = s.fault :=
  fault_of_unlessFaulted_next e (advance_fault n.toNat s)

theorem execIrqOff_fault {s t : State} (e : execIrqOff s = .next t) : t.fault = s.fault :=
  fault_of_unlessFaulted_next (f := fun u => u.setCpuI false) e rfl

theorem execIrqOn_fault {s t : State} (e : execIrqOn s = .next t) : t.fault = s.fault :=
  fault_of_unlessFaulted_next (f := fun u => u.setCpuI true) e rfl

theorem execClkNow_fault {s t : State} (e : execClkNow s = .next t) : t.fault = s.fault :=
  fault_of_unlessFaulted_next (f := fun u => (now u).2.setRes (.u32 (now u).1)) e (now_fault s)

theorem execClkStart_fault {s t : State} (e : execClkStart s = .next t) : t.fault = s.fault := by
  obtain ⟨-, h⟩ := unlessFaulted_next e
  split at h
  · cases h
  · exact fault_of_next_eq h rfl

theorem execSrvInit_fault {s t : State} (e : execSrvInit s = .next t) : t.fault = s.fault := by
  obtain ⟨-, h⟩ := unlessFaulted_next e
  split at h
  · cases h
  · exact fault_of_next_eq h rfl

theorem execSrvAttach_fault {h : Byte} {s t : State} (e : execSrvAttach h s = .next t) :
    t.fault = s.fault := by
  obtain ⟨-, e⟩ := unlessFaulted_next e
  obtain ⟨sl, -, -, e⟩ := withHandle_next e
  exact fault_of_next_eq e (attachSlot_fault _ _ _ _ _)

theorem execSrvAttachl_fault {h : Byte} {lo hi : Half} {s t : State}
    (e : execSrvAttachl h lo hi s = .next t) : t.fault = s.fault := by
  obtain ⟨-, e⟩ := unlessFaulted_next e
  obtain ⟨sl, -, -, e⟩ := withHandle_next e
  split at e
  · cases e
  · split at e
    · cases e
    · exact fault_of_next_eq e (attachSlot_fault _ _ _ _ _)

theorem execSrvDetach_fault {h : Byte} {s t : State} (e : execSrvDetach h s = .next t) :
    t.fault = s.fault := by
  obtain ⟨-, e⟩ := unlessFaulted_next e
  obtain ⟨sl, -, -, e⟩ := withHandle_next e
  exact fault_of_next_eq e (detachSlot_fault _ _ _)

theorem execRngNew_fault {trig : Byte} {temp echo : Half} {s t : State}
    (e : execRngNew trig temp echo s = .next t) : t.fault = s.fault := by
  obtain ⟨-, e⟩ := unlessFaulted_next e
  split at e
  · obtain ⟨-, rfl⟩ := newDriver_next e
    exact constructDriver_fault _ _ _ _
  · cases e

theorem execPinSet_fault {p : Byte} {level : Half} {s t : State} (e : execPinSet p level s = .next t) :
    t.fault = s.fault := by
  obtain ⟨-, e⟩ := unlessFaulted_next e
  split at e
  · cases e
  · split at e
    · cases e
    · exact fault_of_next_eq e (drivePin_fault _ _ _)

theorem execCmdEdge_fault {s t : State} (e : execCmdEdge s = .next t) : t.fault = s.fault := by
  obtain ⟨-, e⟩ := unlessFaulted_next e
  split at e
  · cases e
  · exact fault_of_next_eq e (directBody_fault cmdEdgeBody_fault s)

theorem execMbxPut_fault {address command rep : Half} {s t : State}
    (e : execMbxPut address command rep s = .next t) : t.fault = s.fault := by
  obtain ⟨-, e⟩ := unlessFaulted_next e
  split at e
  · cases e
  · exact fault_of_next_eq e (directBody_fault (fun _ => rfl) s)

theorem execMbxFetch_fault {s t : State} (e : execMbxFetch s = .next t) : t.fault = s.fault := by
  obtain ⟨-, e⟩ := unlessFaulted_next e
  exact fault_of_next_eq e (critical_fault (fun _ => rfl) s)

theorem execDispCmd_fault {address command rep : Half} {s t : State}
    (e : execDispCmd address command rep s = .next t) : t.fault = s.fault := by
  obtain ⟨-, e⟩ := unlessFaulted_next e
  split at e
  · cases e
  · split at e
    · cases e
    · obtain ⟨s1, hcommand, e⟩ := andThen_eq_next e
      exact (fault_of_next_eq (s := s1) e rfl).trans (dispatchCommand_fault hcommand)

theorem execTurBuild_fault {yaw pitch roll trig echo : Byte} {temp : Half} {s t : State}
    (e : execTurBuild yaw pitch roll trig echo temp s = .next t) : t.fault = s.fault := by
  obtain ⟨-, e⟩ := unlessFaulted_next e
  split at e
  · cases e
  · split at e
    · cases e
    · exact fault_of_next_eq e (buildTurret_fault _ _ _ _ _ _ _)

/-- R241: beside `reset`, only the two words that begin a measurement write `FAULT`. -/
theorem exec_keeps_fault {i : Instr} {s t : State} (hreset : i ≠ .reset) (hbegin : i ≠ .rngBegin)
    (hmeasure : ∀ n, i ≠ .rngMeasure n) (e : exec i s = .next t) : t.fault = s.fault := by
  cases i with
  | clkStart => exact execClkStart_fault e
  | clkNow => exact execClkNow_fault e
  | clkTick => exact execClkTick_fault e
  | srvInit => exact execSrvInit_fault e
  | srvNew pin => exact execSrvNew_fault e
  | srvAttach h => exact execSrvAttach_fault e
  | srvAttachl h lo hi => exact execSrvAttachl_fault e
  | srvWrite h value => exact writeAngle_fault (unlessFaulted_next e).2
  | srvWriteus h us => exact writeWidth_fault (unlessFaulted_next e).2
  | srvDetach h => exact execSrvDetach_fault e
  | srvIsr => exact execSrvIsr_fault e
  | rngNew trig temp echo => exact execRngNew_fault e
  | rngBegin => exact absurd rfl hbegin
  | rngPoll => exact rngPoll_fault (unlessFaulted_next e).2
  | rngEnd => exact rngEnd_fault (unlessFaulted_next e).2
  | rngMeasure n => exact absurd rfl (hmeasure n)
  | rngEdge => exact execRngEdge_fault e
  | adv n => exact execAdv_fault e
  | pinSet pin level => exact execPinSet_fault e
  | irqOff => exact execIrqOff_fault e
  | irqOn => exact execIrqOn_fault e
  | reset => exact absurd rfl hreset
  | cmdEdge => exact execCmdEdge_fault e
  | mbxPut address command rep => exact execMbxPut_fault e
  | mbxFetch => exact execMbxFetch_fault e
  | dispCmd address command rep => exact execDispCmd_fault e
  | turBuild yaw pitch roll trig echo temp => exact execTurBuild_fault e

theorem execReset_fault {s t : State} (e : exec .reset s = .next t) : t.fault = none := by
  cases e
  rfl

/-! ### The fault `RangingBusy` (R241) -/

theorem rngBegin_of_busy {s : State} (hq : Quiet s) (hd : s.rng.cfg.isSome = true)
    (hbusy : s.rng.state ≠ .idle) : rngBegin s = .next (raiseFault faultRangingBusy s) := by
  obtain ⟨d, hcfg⟩ := Option.isSome_iff_exists.mp hd
  have hread : critical (fun s => (s.rng.state, s)) s = (s.rng.state, s) :=
    critical_of_quiet (fun s => (s.rng.state, s)) s hq
  simp only [rngBegin, hcfg, hread, if_neg hbusy]

/-- R164: the fault of its `rng.begin` ends the word before the loop. -/
theorem measure_of_busy {s : State} {n : Nat} (hn : n ≠ 0) (hq : Quiet s) (hd : s.rng.cfg.isSome = true)
    (hbusy : s.rng.state ≠ .idle) : measure n s = .next (raiseFault faultRangingBusy s) := by
  rw [measure, if_neg hn, rngBegin_of_busy hq hd hbusy, andThen_next']
  exact if_pos rfl

theorem exec_rngBegin (s : State) : exec .rngBegin s = unlessFaulted s rngBegin := rfl

theorem exec_rngMeasure (n : Quad) (s : State) :
    exec (.rngMeasure n) s = unlessFaulted s (measure n.toNat) := rfl

theorem rngBegin_faults_only_when_busy {s t : State} (hs : s.fault = none) (ht : t.fault ≠ none)
    (e : rngBegin s = .next t) : s.rng.state ≠ .idle ∧ t.fault = some faultRangingBusy := by
  obtain ⟨-, hkept⟩ | hbusy := rngBegin_fault e
  · exact absurd (hkept.trans hs) ht
  · exact hbusy

/-- Settles O33: in a quiet state the critical section that reads the ranging state takes no interrupt, so
nothing but the fault is written; and a word that faults is none of those that keep `FAULT`. -/
theorem onlyBusyMeasurementFaults : Obligations.OnlyBusyMeasurementFaults := by
  unfold Obligations.OnlyBusyMeasurementFaults
  refine ⟨fun s n hq hs hd hbusy => ⟨?beginRaises, fun hn => ?measureRaises⟩,
    fun i s t hs e ht => ?onlyThese⟩
  case beginRaises =>
    rw [exec_rngBegin, unlessFaulted_of_none hs, rngBegin_of_busy hq hd hbusy]
    rfl
  case measureRaises =>
    have hn' : n.toNat ≠ 0 := fun h => hn (BitVec.eq_of_toNat_eq h)
    rw [exec_rngMeasure, unlessFaulted_of_none hs, measure_of_busy hn' hq hd hbusy]
    rfl
  case onlyThese =>
    by_cases hbegin : i = .rngBegin
    · subst hbegin
      exact ⟨.inl rfl, rngBegin_faults_only_when_busy hs ht (unlessFaulted_next e).2⟩
    by_cases hmeasure : ∃ n, i = .rngMeasure n
    · obtain ⟨n, rfl⟩ := hmeasure
      have hb : rngBegin s = .next t := (measure_fault (unlessFaulted_next e).2).resolve_left ht
      exact ⟨.inr ⟨n, rfl⟩, rngBegin_faults_only_when_busy hs ht hb⟩
    have hreset : i ≠ .reset := by
      rintro rfl
      exact ht (execReset_fault e)
    have hkept := exec_keeps_fault hreset hbegin (fun n h => hmeasure ⟨n, h⟩) e
    exact absurd (hkept.trans hs) ht

end Sys2Proof.Machine
end

section
/-! The encoding of the stimulus words (30_encoding.md R80 to R85): a word is its five fields, the mask test of
its format says that the fields it does not use are 0, and so a row of the opcode map and the encoder undo each
other. -/

namespace Sys2Proof

/-! ### A word is its five fields (R80) -/

theorem packWord_fields (w : Word) :
    packWord (opField w) (hField w) (aField w) (bField w) (cField w) = w := by
  unfold packWord opField hField aField bField cField
  ext i hi
  simp only [BitVec.getElem_append, BitVec.getElem_extractLsb']
  grind

theorem packWord_inj {op op' h h' : Byte} {a a' b b' c c' : Half} :
    packWord op h a b c = packWord op' h' a' b' c' ↔ op = op' ∧ h = h' ∧ a = a' ∧ b = b' ∧ c = c' := by
  refine ⟨fun e => ?_, fun ⟨eop, eh, ea, eb, ec⟩ => by rw [eop, eh, ea, eb, ec]⟩
  have hop := congrArg opField e
  have hh := congrArg hField e
  have ha := congrArg aField e
  have hb := congrArg bField e
  have hc := congrArg cField e
  simp only [opField_packWord, hField_packWord, aField_packWord, bField_packWord, cField_packWord] at hop hh ha hb hc
  exact ⟨hop, hh, ha, hb, hc⟩

theorem packWord_and (op op' h h' : Byte) (a a' b b' c c' : Half) :
    packWord op h a b c &&& packWord op' h' a' b' c' =
      packWord (op &&& op') (h &&& h') (a &&& a') (b &&& b') (c &&& c') := by
  simp only [packWord]
  rw [BitVec.and_append, BitVec.and_append, BitVec.and_append, BitVec.and_append]

theorem opcodeMatch_packWord (op h : Byte) (a b c : Half) :
    opcodeMatch (packWord op h a b c) = packWord op 0 0 0 0 := by
  rw [opcodeMatch, opField_packWord, packWord]
  ext i hi
  simp
  grind

@[simp] theorem opField_packN32 (op : Byte) (n : Quad) : opField (packN32 op n) = op := opField_packWord _ _ _ _ _

/-- The immediate of format N32 lies in the fields `b` and `c` (R80). -/
theorem packN32_nField (op : Byte) (w : Word) : packN32 op (nField w) = packWord op 0 0 (bField w) (cField w) := by
  have hb : (nField w).extractLsb' 16 16 = bField w := by
    unfold nField bField
    ext i hi
    simp
  have hc : (nField w).extractLsb' 0 16 = cField w := by
    unfold nField cField
    ext i hi
    simp
  rw [packN32, hb, hc]

theorem hiByte_append_loByte (f : Half) : hiByte f ++ loByte f = f := by
  unfold hiByte loByte
  ext i hi
  simp only [BitVec.getElem_append, BitVec.getElem_extractLsb']
  grind

/-! ### The mask test (R81) -/

/-- The fields that a format does not use are 0 (R81, R85 (b)). -/
def Format.UnusedZero (h : Byte) (a b c : Half) : Format → Prop
  | .z => h = 0 ∧ a = 0 ∧ b = 0 ∧ c = 0
  | .h => a = 0 ∧ b = 0 ∧ c = 0
  | .hc => a = 0 ∧ b = 0
  | .hab => c = 0
  | .hac => b = 0
  | .n32 => h = 0 ∧ a = 0
  | .abc => h = 0
  | .habc => True

/-- The mask of a format, field by field: it keeps the opcode and the fields that the format does not use. -/
theorem Format.mask_eq (f : Format) : f.mask = match f with
    | .z => packWord (.allOnes 8) (.allOnes 8) (.allOnes 16) (.allOnes 16) (.allOnes 16)
    | .h => packWord (.allOnes 8) 0#8 (.allOnes 16) (.allOnes 16) (.allOnes 16)
    | .hc => packWord (.allOnes 8) 0#8 (.allOnes 16) (.allOnes 16) 0#16
    | .hab => packWord (.allOnes 8) 0#8 0#16 0#16 (.allOnes 16)
    | .hac => packWord (.allOnes 8) 0#8 0#16 (.allOnes 16) 0#16
    | .n32 => packWord (.allOnes 8) (.allOnes 8) (.allOnes 16) 0#16 0#16
    | .abc => packWord (.allOnes 8) (.allOnes 8) 0#16 0#16 0#16
    | .habc => packWord (.allOnes 8) 0#8 0#16 0#16 0#16 := by
  cases f <;> decide

theorem packWord_and_mask (f : Format) (op h : Byte) (a b c : Half) :
    packWord op h a b c &&& f.mask = opcodeMatch (packWord op h a b c) ↔ f.UnusedZero h a b c := by
  rw [opcodeMatch_packWord, f.mask_eq]
  cases f <;>
    simp only [packWord_and, BitVec.and_allOnes, BitVec.and_zero, packWord_inj, Format.UnusedZero, BitVec.ofNat_eq_ofNat,
      true_and, and_true]

/-! ### The rows of the opcode map (R83) -/

/-- The format of an instruction's word (R83). -/
def Instr.format : Instr → Format
  | .srvNew _ | .srvAttach _ | .srvDetach _ => .h
  | .srvAttachl _ _ _ => .hab
  | .srvWrite _ _ | .srvWriteus _ _ | .pinSet _ _ => .hc
  | .rngNew _ _ _ => .hac
  | .rngMeasure _ | .adv _ => .n32
  | .mbxPut _ _ _ | .dispCmd _ _ _ => .abc
  | .turBuild _ _ _ _ _ _ => .habc
  | _ => .z

/-- The row that the map finds for the word of an instruction reads the instruction back. -/
theorem opcodeRow_encode (i : Instr) : opcodeRow (encode i) = some (i.format, i) := by
  cases i <;> simp [encode, opcodeRow, Instr.format]

/-- The word of an instruction passes the mask test of its format. -/
theorem encode_and_mask (i : Instr) : encode i &&& i.format.mask = opcodeMatch (encode i) := by
  cases i
  all_goals
    rw [encode]
    refine (packWord_and_mask _ _ _ _ _ _).mpr ?_
    simp [Instr.format, Format.UnusedZero]

/-- A word that passes the mask test of its row is the word of the instruction in the row. -/
theorem encode_of_opcodeRow {w : Word} {f : Format} {i : Instr} (hrow : opcodeRow w = some (f, i))
    (hmask : w &&& f.mask = opcodeMatch w) : encode i = w := by
  have hzero : f.UnusedZero (hField w) (aField w) (bField w) (cField w) := by
    rw [← packWord_fields w] at hmask
    exact (packWord_and_mask _ _ _ _ _ _).mp hmask
  have hw : packWord (BitVec.ofNat 8 (opField w).toNat) (hField w) (aField w) (bField w) (cField w) = w := by
    rw [BitVec.ofNat_toNat, BitVec.setWidth_eq, packWord_fields]
  rw [← hw]
  clear hw hmask
  unfold opcodeRow at hrow
  split at hrow
  all_goals
    rename_i hop
    simp only [Option.some.injEq, Prod.mk.injEq, reduceCtorEq] at hrow
  all_goals
    obtain ⟨rfl, rfl⟩ := hrow
    simp only [Format.UnusedZero] at hzero
    simp only [encode, packN32_nField, hiByte_append_loByte, hzero, hop, BitVec.ofNat_eq_ofNat]

/-! ### The statements -/

/-- Settles O1: the row of the instruction's own word gives it back, and the word passes the mask test. -/
theorem decodeEncodeRoundTrip : Obligations.DecodeEncodeRoundTrip := by
  unfold Obligations.DecodeEncodeRoundTrip
  intro i hwf
  simp only [decode, opcodeRow_encode, encode_and_mask, if_true, hwf]

theorem decode_ok {w : Word} {i : Instr} (h : decode w = .ok i) : i.wellFormed = true ∧ encode i = w := by
  unfold decode at h
  split at h
  · cases h
  next f j hrow =>
    split at h
    next hmask =>
      split at h
      next hwf =>
        obtain rfl : j = i := by simpa using h
        exact ⟨hwf, encode_of_opcodeRow hrow hmask⟩
      · cases h
    · cases h

/-- Settles O2: what decodes passed the tests of its row, the operand ranges last. -/
theorem decodedWordIsItsEncoding : Obligations.DecodedWordIsItsEncoding :=
  fun _ _ => decode_ok

/-- R83: the map has a row for the 27 opcodes only. -/
theorem opcodeRow_of_reserved {w : Word} (h : (opField w).toNat ∉
      [0x01, 0x02, 0x03, 0x10, 0x11, 0x12, 0x13, 0x14, 0x15, 0x16, 0x17, 0x20, 0x21, 0x22, 0x23, 0x24,
       0x25, 0x30, 0x31, 0x32, 0x33, 0x34, 0x40, 0x41, 0x42, 0x43, 0x44]) : opcodeRow w = none := by
  unfold opcodeRow
  split
  case h_28 => rfl
  all_goals
    rename_i hop
    exact absurd (by rw [hop]; decide) h

/-- Settles O3: a reserved opcode has no row; a word that is no well-formed instruction's cannot decode, since
what decodes is the word of its instruction. -/
theorem reservedWordsAreRefused : Obligations.ReservedWordsAreRefused := by
  unfold Obligations.ReservedWordsAreRefused
  refine ⟨fun w hop => ?opcode, fun w s hno => ?word⟩
  case opcode =>
    have hrow : opcodeRow w = none := opcodeRow_of_reserved hop
    simp only [decode, hrow]
  case word =>
    cases hd : decode w with
    | error why => exact ⟨why, Machine.applyWord_of_error hd s⟩
    | ok i => exact absurd (decode_ok hd).2 (hno i (decode_ok hd).1)

/-- Settles O4: the decoder evaluated on each word. -/
theorem writtenWordsDecode : Obligations.WrittenWordsDecode := by
  unfold Obligations.WrittenWordsDecode
  refine ⟨?_, ?_, ?_, ?_, ?_, ?_, ?_, ?_⟩ <;> decide

end Sys2Proof
end

section
/-! What a word can do, said once. Beside the handlers, the interrupts and the passing of time (`Underneath`)
every word makes a few writes of its own (`Write`), and it is a sequence of these (`exec_moves`). An invariant of
the machine is then two case analyses, one over what goes on underneath and one over the writes
(`step_keeps`). -/

namespace Sys2Proof.Machine

open Relation (ReflTransGen)

/-! ### The moves -/

/-- What goes on underneath a word: the handler bodies, entry and return, time and the counts of the timers
(43_environment.md R181 to R183, 60_exceptions.md R236 to R239). -/
inductive Underneath : State → State → Prop
  | body (src : Source) (s : State) : Underneath s (runBody src s)
  | clear (src : Source) (s : State) : Underneath s (clearPending s src)
  | mask (b : Bool) (s : State) : Underneath s (s.setCpuI b)
  | time (s : State) : Underneath s (s.setT (s.t + 1))
  | countT0 {s : State} (run : s.t0.run = true) : Underneath s (countT0 s)
  | countT1 {s : State} (ie : s.t1.ie = true) : Underneath s (countT1 s)

/-- The words by what they write of their own: the registrations and the driver (`wiring`), the measurement
(`measuring`), `pin.set` (`driving`), `reset`, and the rest. -/
inductive WordKind where
  | plain | wiring | measuring | driving | resetting
  deriving DecidableEq

/-- The kind of a word. -/
def wordKind : Instr → WordKind
  | .srvNew _ | .srvAttach _ | .srvAttachl _ _ _ | .rngNew _ _ _ | .turBuild _ _ _ _ _ _ => .wiring
  | .rngBegin | .rngPoll | .rngEnd | .rngMeasure _ => .measuring
  | .pinSet _ _ => .driving
  | .reset => .resetting
  | _ => .plain

/-- The writes of a word's own, with what its checks have established when they are made. -/
inductive Write : WordKind → State → State → Prop
  | result (k : WordKind) (r : Res) (s : State) : Write k s (s.setRes r)
  | start {s : State} (h : s.clk.started = false) : Write .plain s (startClock s)
  | handOver (s : State) : Write .plain s (s.setSrv { s.srv with owned := true })
  | detach {h : Nat} {sl : Slot} {s : State} (hs : s.srv.slots[h]? = some sl) (ha : sl.attached = true) :
      Write .plain s (detachSlot h sl s)
  | width {h : Nat} {sl : Slot} {s : State} (ticks : Half) (hs : s.srv.slots[h]? = some sl) :
      Write .plain s (setSlot h { sl with ticks := ticks } s)
  | mailbox (m : Option Command) (s : State) : Write .plain s (s.setMbx m)
  | decoder (d : Nat) (s : State) : Write .plain s (s.setDec d)
  | pitch {tu : Turret} {new : Nat} {s : State} (ht : s.tur = some tu)
      (hn : s.cfg.pitchMin ≤ new ∧ new ≤ tu.pitch ∨ tu.pitch ≤ new ∧ new ≤ s.cfg.pitchMax) :
      Write .plain s (s.setTur (some { tu with pitch := new }))
  | register (pin : Byte) (s : State) : Write .wiring s (registerServo pin s)
  | attach {h : Nat} {sl : Slot} {lo hi : Half} {s : State} (hs : s.srv.slots[h]? = some sl)
      (ha : sl.attached = false)
      (hl : lo = BitVec.ofNat 16 minPulseUs ∧ hi = BitVec.ofNat 16 maxPulseUs ∨
        lo.toNat ≤ hi.toNat ∧ s.cfg.usToTicks hi.toNat ≤ 65535) :
      Write .wiring s (attachSlot h sl lo hi s)
  | driver {trig : Byte} {temp : Half} {echo : Byte} {s : State} (hr : driverRefusal trig temp echo s = none) :
      Write .wiring s (constructDriver trig temp echo s)
  | turret {y p r : Nat} {s : State} (hy : y < p) (hp : p < r) (hr : r < s.srvCount)
      (hd : s.rng.cfg.isSome = true) :
      Write .wiring s (s.setTur (some { pitch := s.cfg.pitchInit, yaw := y, pit := p, roll := r }))
  | trigger {d : Driver} {s : State} (l : Level) (hd : s.rng.cfg = some d) :
      Write .measuring s (pinWrite d.trig l s)
  | ranging (r : Ranging) (s : State) (hr : r.cfg = s.rng.cfg) : Write .measuring s (s.setRng r)
  | edge (e : EdgeUnit) (s : State) : Write .measuring s (s.setEdge e)
  | meas (m : Meas) (s : State) : Write .measuring s (s.setMeas m)
  | raise (s : State) : Write .measuring s (raiseFault faultRangingBusy s)
  | drive {p : Byte} {s : State} (l : Level) (hp : (getPin s p).dir = .input) :
      Write .driving s (drivePin p l s)

/-- One move of a word of kind `k`; the words that wire the machine take no interrupt. -/
inductive Move (k : WordKind) (s t : State) : Prop
  | under (hk : k ≠ .wiring) (h : Underneath s t)
  | write (h : Write k s t)

/-- A sequence of moves. -/
abbrev Moves (k : WordKind) : State → State → Prop := ReflTransGen (Move k)

/-- A stretch of what goes on underneath. -/
abbrev Background : State → State → Prop := ReflTransGen Underneath

theorem Write.moves {k : WordKind} {s t : State} (h : Write k s t) : Moves k s t := .single (.write h)

/-- A property that every move of a word keeps. -/
theorem Moves.keeps {k : WordKind} {P : State → Prop} (hu : ∀ s t, Underneath s t → P s → P t)
    (hw : ∀ s t, Write k s t → P s → P t) {s t : State} (h : Moves k s t) (hs : P s) : P t := by
  induction h with
  | refl => exact hs
  | tail _ m ih =>
    cases m with
    | under _ u => exact hu _ _ u ih
    | write w => exact hw _ _ w ih

theorem Background.keeps {P : State → Prop} (hu : ∀ s t, Underneath s t → P s → P t) {s t : State}
    (h : Background s t) (hs : P s) : P t := by
  induction h with
  | refl => exact hs
  | tail _ u ih => exact hu _ _ u ih

theorem Background.moves {k : WordKind} (hk : k ≠ .wiring) {s t : State} (h : Background s t) : Moves k s t :=
  h.keeps (P := Moves k s) (fun _ _ u m => m.tail (.under hk u)) .refl

/-! ### What the shared operations are made of -/

theorem takeInterrupt_background (src : Source) (s : State) : Background s (takeInterrupt src s) :=
  calc Background s (clearPending s src) := .single (.clear src s)
    Background _ (enter src s) := .single (.mask false _)
    Background _ (runBody src (enter src s)) := .single (.body src _)
    Background _ (takeInterrupt src s) := .single (.mask true _)

theorem dispatch_background (s : State) : Background s (dispatch s) :=
  dispatch_keeps (P := Background s) (fun src u _ _ h => h.trans (takeInterrupt_background src u)) .refl

theorem advance_background (n : Nat) (s : State) : Background s (advance n s) :=
  advance_keeps (P := Background s) (fun src u _ _ h => h.trans (takeInterrupt_background src u))
    (fun u h => h.tail (.time u)) (fun _ hr h => h.tail (.countT0 hr)) (fun _ hi h => h.tail (.countT1 hi)) n s .refl

theorem directBody_background (src : Source) (s : State) : Background s (directBody (runBody src) s) := by
  rw [directBody_runBody]
  exact .single (.body src s)

/-! ### The multiplexer and the host side -/

theorem storeTicks_moves {h : Nat} {sl : Slot} (v : Nat) {s : State} (hs : s.srv.slots[h]? = some sl) :
    Moves .plain s (storeTicks h sl v s) := by
  rw [storeTicks_eq]
  exact (((Write.width _ hs).moves).trans ((dispatch_background _).moves (by decide))).trans (Write.result _ _ _).moves

theorem writeAngle_moves {h value : Nat} {s t : State} (e : writeAngle h value s = .next t) : Moves .plain s t := by
  obtain ⟨sl, hs, -, rfl⟩ := writeAngle_next e
  exact storeTicks_moves _ hs

theorem writeWidth_moves {h us : Nat} {s t : State} (e : writeWidth h us s = .next t) : Moves .plain s t := by
  obtain ⟨sl, hs, -, rfl⟩ := writeWidth_next e
  exact storeTicks_moves _ hs

theorem delayMs_moves (k : Nat) (s : State) : Moves .plain s (delayMs k s) :=
  (advance_background _ s).moves (by decide)

theorem dispatchCommand_moves {code : Byte} {rep : Bool} {tu : Turret} {s t : State} (ht : s.tur = some tu)
    (e : dispatchCommand code rep tu s = .next t) : Moves .plain s t := by
  obtain rfl | ⟨new, hmove, hnew⟩ | ⟨h, us, ms, -, hpulse⟩ := dispatchCommand_next e
  · exact .refl
  · have hn : s.cfg.pitchMin ≤ new ∧ new ≤ tu.pitch ∨ tu.pitch ≤ new ∧ new ≤ s.cfg.pitchMax := by
      omega
    obtain ⟨s1, hwrite, rfl⟩ := movePitch_next hmove
    exact ((Write.pitch ht hn).moves.trans (writeAngle_moves hwrite)).trans (delayMs_moves _ _)
  · obtain ⟨s1, hout, hback⟩ := pulseServo_next hpulse
    exact ((writeWidth_moves hout).trans (delayMs_moves ms s1)).trans (writeWidth_moves hback)

theorem cmdEdgeBody_moves (s : State) : Moves .plain s (cmdEdgeBody s) := by
  unfold cmdEdgeBody storeOutcome
  dsimp only
  split
  · exact (Write.decoder _ s).moves.trans (Write.mailbox _ _).moves
  · exact (Write.decoder _ s).moves
  · exact (Write.decoder _ s).moves

/-- A body run with `CPU.I` saved, cleared and restored around it. -/
theorem directBody_moves {k : WordKind} (hk : k ≠ .wiring) {body : State → State}
    (hb : ∀ s, Moves k s (body s)) (s : State) : Moves k s (directBody body s) :=
  ((Background.moves hk (.single (.mask false s))).trans (hb _)).trans
    (Background.moves hk (.single (.mask s.cpuI _)))

/-! ### The registrations -/

/-- Registering and attaching one servo; when both succeed, its handle is the count of slots before and there
is one slot more. -/
theorem buildServo_moves (pin : Byte) (s : State) :
    Moves .wiring s (buildServo pin s).1 ∧ (buildServo pin s).1.rng = s.rng ∧ (buildServo pin s).1.cfg = s.cfg ∧
      ∀ h, (buildServo pin s).2 = some h → h = s.srvCount ∧ (buildServo pin s).1.srvCount = h + 1 := by
  obtain ⟨code, hb, -⟩ | ⟨ho, hc, pins, hb, -⟩ := buildServo_cases pin s
  · rw [hb]
    exact ⟨(Write.result _ _ _).moves, rfl, rfl, fun h e => by simp at e⟩
  · refine ⟨?_, by rw [hb]; rfl, by rw [hb]; rfl, fun h e => ?_⟩
    · have hreg : registerServo pin s = (s.setSrv { s.srv with
          slots := s.srv.slots ++ [newSlot s.cfg pin] }).setRes (.handle s.srvCount) := by
        obtain ⟨ho', -⟩ | ⟨-, hc', -⟩ | ⟨-, -, h⟩ := registerServo_cases pin s
        · simp [ho] at ho'
        · exact absurd hc' hc
        · exact h
      have hslot : (registerServo pin s).srv.slots[s.srvCount]? = some (newSlot s.cfg pin) := by
        rw [hreg]
        simp [State.srvCount]
      have hbuild : (buildServo pin s).1 = attachSlot s.srvCount (newSlot s.cfg pin) (BitVec.ofNat 16 minPulseUs)
          (BitVec.ofNat 16 maxPulseUs) (registerServo pin s) := by
        have hres : (registerServo pin s).res = .handle s.srvCount := by
          rw [hreg]
          rfl
        simp only [buildServo, hres, hslot]
      rw [hbuild]
      exact (Write.register pin s).moves.trans (Write.attach hslot rfl (.inl ⟨rfl, rfl⟩)).moves
    · rw [hb] at e ⊢
      obtain rfl : s.srvCount = h := by simpa using e
      exact ⟨rfl, by simp [State.srvCount]⟩

theorem buildTurret_moves {yaw pitch roll trig echo : Byte} {temp : Half} {s : State}
    (hr : driverRefusal trig temp echo s = none) :
    Moves .wiring s (buildTurret yaw pitch roll trig echo temp s) := by
  obtain ⟨m1, r1, c1, b1⟩ := buildServo_moves yaw s
  unfold buildTurret
  split
  next s1 h1 => simpa [h1] using m1
  next s1 hy h1 =>
    simp only [h1] at m1 r1 c1 b1
    obtain ⟨m2, r2, c2, b2⟩ := buildServo_moves pitch s1
    split
    next s2 h2 => simp only [h2] at m2; exact m1.trans m2
    next s2 hp h2 =>
      simp only [h2] at m2 r2 c2 b2
      obtain ⟨m3, r3, c3, b3⟩ := buildServo_moves roll s2
      split
      next s3 h3 => simp only [h3] at m3; exact m1.trans (m2.trans m3)
      next s3 hr' h3 =>
        simp only [h3] at m3 r3 c3 b3
        obtain ⟨-, hy1⟩ := b1 hy rfl
        obtain ⟨hp1, hp2⟩ := b2 hp rfl
        obtain ⟨hr1, hr2⟩ := b3 hr' rfl
        have hcfg : s.cfg = s3.cfg := by rw [c3, c2, c1]
        have hr3 : driverRefusal trig temp echo s3 = none := by
          rw [← hr]
          simp only [driverRefusal, r3, r2, r1, hcfg]
        have hbuilt : Write .wiring (constructDriver trig temp echo s3) ((constructDriver trig temp echo s3).setTur
            (some { pitch := s.cfg.pitchInit, yaw := hy, pit := hp, roll := hr' })) := by
          rw [hcfg]
          obtain ⟨pins, hdriver, -⟩ := constructDriver_eq trig temp echo s3
          have hcount : (constructDriver trig temp echo s3).srvCount = s3.srvCount := by rw [hdriver]; rfl
          have hc : (constructDriver trig temp echo s3).cfg = s3.cfg := by rw [hdriver]; rfl
          rw [← hc]
          refine .turret (by omega) (by omega) (by omega) ?_
          rw [hdriver]
          rfl
        exact m1.trans (m2.trans (m3.trans ((Write.driver hr3).moves.trans
          (hbuilt.moves.trans (Write.result _ _ _).moves))))

/-! ### The measurement -/

theorem triggerPulse_moves {d : Driver} {s : State} (hd : s.rng.cfg = some d) :
    Moves .measuring s (triggerPulse d s) := by
  have hk : WordKind.measuring ≠ .wiring := by decide
  have f1 := (pinWrite_frame d.trig .low s).trans (advance_frame (settleUs * s.cfg.cycPerUs) _)
  have f2 := (f1.trans (pinWrite_frame d.trig .high _)).trans (advance_frame (trigUs * (advance (settleUs *
    s.cfg.cycPerUs) (pinWrite d.trig .low s)).cfg.cycPerUs) _)
  unfold triggerPulse
  exact ((((Write.trigger .low hd).moves.trans ((advance_background _ _).moves hk)).trans
    (Write.trigger .high (f1.driver.trans hd)).moves).trans ((advance_background _ _).moves hk)).trans
    (Write.trigger .low (f2.driver.trans hd)).moves

theorem beginMeasure_moves {d : Driver} {s : State} (hd : s.rng.cfg = some d) :
    Moves .measuring s (beginMeasure d s) := by
  have hk : WordKind.measuring ≠ .wiring := by decide
  have hclear : Moves .measuring s (clearTimestamps s) := by
    rw [clearTimestamps_eq]
    exact (Write.ranging { s.rng with trigTime := none, echoTime := none } s rfl).moves.trans
      ((dispatch_background _).moves hk)
  have hd' : (clearTimestamps s).rng.cfg = some d := by
    rw [clearTimestamps_eq]
    exact (dispatch_frame _).driver.trans hd
  have hpulse := triggerPulse_moves hd'
  unfold beginMeasure
  generalize triggerPulse d (clearTimestamps s) = s2 at hpulse ⊢
  have htrig : Moves .measuring s2 (goTriggered s2) := by
    rw [goTriggered_eq]
    exact (Write.ranging { s2.rng with state := .triggered } s2 rfl).moves.trans
      ((dispatch_background _).moves hk)
  have hedge : Moves .measuring (goTriggered s2) (setEdgeMode .rising (goTriggered s2)) := (Write.edge _ _).moves
  have hloop : ∀ u, Moves .measuring u (enterLoop u) := fun u => by
    rw [enterLoop_eq]
    exact ((dispatch_background u).moves hk).trans (Write.meas _ _).moves
  exact hclear.trans (hpulse.trans (htrig.trans (hedge.trans (hloop _))))

theorem rngBegin_moves {s t : State} (e : rngBegin s = .next t) : Moves .measuring s t := by
  have hdisp : Moves .measuring s (dispatch s) := (dispatch_background s).moves (by decide)
  obtain ⟨d, hd, ⟨-, rfl⟩ | ⟨-, rfl⟩⟩ := rngBegin_next e
  · exact hdisp.trans (beginMeasure_moves ((dispatch_frame s).driver.trans hd))
  · exact hdisp.trans (Write.raise _).moves

/-- The write of the critical section of `rng.poll` (R158): once the trigger edge is captured, re-arm for the
falling edge and go to Measuring. -/
def rearm (s : State) : State :=
  if s.rng.state = .triggered ∧ s.rng.trigTime.isSome then
    (s.setEdge { mode := .falling, pend := false }).setRng { s.rng with state := .measuring }
  else s

theorem rearm_of_due {s : State} (h : s.rng.state = .triggered ∧ s.rng.trigTime.isSome = true) :
    rearm s = (s.setEdge { mode := .falling, pend := false }).setRng { s.rng with state := .measuring } := if_pos h

theorem rearm_of_not_due {s : State} (h : ¬ (s.rng.state = .triggered ∧ s.rng.trigTime.isSome = true)) :
    rearm s = s := if_neg h

/-- The critical section of `rng.poll` reads the timestamps and re-arms; `CPU.I` plays no part in either. -/
theorem critical_rearmIfDue (s : State) :
    critical rearmIfDue s = ((s.rng.trigTime, s.rng.echoTime), dispatch (rearm s)) := by
  obtain ⟨hread, ⟨ht, hs, hw⟩ | ⟨hn, hw⟩⟩ := rearmIfDue_cases (s.setCpuI false)
  · rw [rearm_of_due (s := s) ⟨ht, hs⟩, critical]
    simp only [hread, hw]
    rfl
  · rw [rearm_of_not_due (s := s) hn, critical]
    simp only [hread, hw]
    rfl

/-- One pass of the loop: the timeout ends it; else the re-arm, and the end when both timestamps were read. -/
theorem pollPass_eq (start : Quad) (s : State) : pollPass start s =
    if driverTimeout (dispatch s) ≤ (nowValue s - start).toNat then (dispatch s).setMeas .exiting
    else if (dispatch s).rng.trigTime.isSome ∧ (dispatch s).rng.echoTime.isSome then
      (dispatch (rearm (dispatch s))).setMeas .exiting
    else dispatch (rearm (dispatch s)) := by
  simp only [pollPass, now_eq, critical_rearmIfDue]

theorem rearm_moves (s : State) : Moves .measuring s (rearm s) := by
  unfold rearm
  split
  · exact (Write.edge { mode := .falling, pend := false } s).moves.trans
      (Write.ranging { s.rng with state := .measuring } (s.setEdge { mode := .falling, pend := false }) rfl).moves
  · exact .refl

theorem pollPass_moves (start : Quad) (s : State) : Moves .measuring s (pollPass start s) := by
  have hdisp : ∀ u, Moves .measuring u (dispatch u) := fun u => (dispatch_background u).moves (by decide)
  have hmeas : ∀ u, Moves .measuring u (u.setMeas .exiting) := fun u => (Write.meas _ u).moves
  have hrearm : Moves .measuring s (dispatch (rearm (dispatch s))) :=
    (hdisp s).trans ((rearm_moves _).trans (hdisp _))
  rw [pollPass_eq]
  split
  · exact (hdisp s).trans (hmeas _)
  · split
    · exact hrearm.trans (hmeas _)
    · exact hrearm

theorem rngPoll_moves {s t : State} (e : rngPoll s = .next t) : Moves .measuring s t := by
  obtain ⟨start, -, rfl⟩ := rngPoll_next e
  exact pollPass_moves start s

theorem rngEnd_moves {s t : State} (e : rngEnd s = .next t) : Moves .measuring s t := by
  obtain ⟨-, rfl⟩ := rngEnd_next e
  rw [endMeasure_eq]
  have hedge : Moves .measuring s (setEdgeMode .off s) := (Write.edge _ s).moves
  have hidle := (Write.ranging { s.rng with state := .idle } (setEdgeMode .off s) rfl).moves
  have hdisp := (dispatch_background ((setEdgeMode .off s).setRng { s.rng with state := .idle })).moves
    (k := .measuring) (by decide)
  exact hedge.trans (hidle.trans (hdisp.trans ((Write.meas _ _).moves.trans (Write.result _ _ _).moves)))

theorem measure_moves {n : Nat} {s t : State} (e : measure n s = .next t) : Moves .measuring s t := by
  have hk : WordKind.measuring ≠ .wiring := by decide
  obtain ⟨-, b, hb, ⟨-, rfl⟩ | ⟨-, hloop⟩⟩ := measure_next e
  · exact rngBegin_moves hb
  · exact measureLoop_keeps (P := Moves .measuring s) (fun _ _ h e => h.trans (rngPoll_moves e))
      (fun u h => h.trans ((dispatch_background u).moves hk))
      (fun m u h => h.trans ((advance_background m u).moves hk)) (fun _ _ h e => h.trans (rngEnd_moves e)) _ n _ t
      ((rngBegin_moves hb).trans ((dispatch_background b).moves hk)) hloop

/-! ### The words -/

theorem moves_of_next_eq {k : WordKind} {s u t : State} (e : (.next u : Out) = .next t) (h : Moves k s u) :
    Moves k s t := by
  obtain rfl : u = t := by simpa using e
  exact h

/-- A word that outside the faulted state always completes, with the effect `f`. -/
theorem moves_of_unlessFaulted_next {k : WordKind} {f : State → State} {s t : State}
    (e : unlessFaulted s (fun u => .next (f u)) = .next t) (h : Moves k s (f s)) : Moves k s t :=
  moves_of_next_eq (unlessFaulted_next e).2 h

theorem execClkStart_moves {s t : State} (e : execClkStart s = .next t) : Moves .plain s t := by
  obtain ⟨-, e⟩ := unlessFaulted_next e
  split at e
  · cases e
  · next h => exact moves_of_next_eq e (Write.start (by simpa using h)).moves

theorem execClkNow_moves {s t : State} (e : execClkNow s = .next t) : Moves .plain s t :=
  moves_of_unlessFaulted_next (f := fun u => (now u).2.setRes (.u32 (now u).1)) e
    (((dispatch_background s).moves (by decide)).trans (Write.result _ _ _).moves)

theorem execClkTick_moves {s t : State} (e : execClkTick s = .next t) : Moves .plain s t :=
  moves_of_unlessFaulted_next e ((directBody_background .tick s).moves (by decide))

theorem execSrvIsr_moves {s t : State} (e : execSrvIsr s = .next t) : Moves .plain s t :=
  moves_of_unlessFaulted_next e ((directBody_background .servo s).moves (by decide))

theorem execRngEdge_moves {s t : State} (e : execRngEdge s = .next t) : Moves .plain s t :=
  moves_of_unlessFaulted_next e ((directBody_background .edge s).moves (by decide))

theorem execAdv_moves {n : Quad} {s t : State} (e : execAdv n s = .next t) : Moves .plain s t :=
  moves_of_unlessFaulted_next e ((advance_background _ s).moves (by decide))

theorem execIrqOff_moves {s t : State} (e : execIrqOff s = .next t) : Moves .plain s t :=
  moves_of_unlessFaulted_next (f := fun u => u.setCpuI false) e
    (Background.moves (by decide) (.single (.mask false s)))

theorem execIrqOn_moves {s t : State} (e : execIrqOn s = .next t) : Moves .plain s t :=
  moves_of_unlessFaulted_next (f := fun u => u.setCpuI true) e
    (Background.moves (by decide) (.single (.mask true s)))

theorem execSrvInit_moves {s t : State} (e : execSrvInit s = .next t) : Moves .plain s t := by
  obtain ⟨-, e⟩ := unlessFaulted_next e
  split at e
  · cases e
  · exact moves_of_next_eq e ((Write.handOver s).moves.trans (Write.result _ _ _).moves)

theorem execSrvAttach_moves {h : Byte} {s t : State} (e : execSrvAttach h s = .next t) : Moves .wiring s t := by
  obtain ⟨-, e⟩ := unlessFaulted_next e
  obtain ⟨sl, hs, ha, e⟩ := withHandle_next e
  exact moves_of_next_eq e (Write.attach hs ha (.inl ⟨rfl, rfl⟩)).moves

theorem execSrvAttachl_moves {h : Byte} {lo hi : Half} {s t : State}
    (e : execSrvAttachl h lo hi s = .next t) : Moves .wiring s t := by
  obtain ⟨-, e⟩ := unlessFaulted_next e
  obtain ⟨sl, hs, ha, e⟩ := withHandle_next e
  split at e
  · cases e
  · split at e
    · cases e
    · exact moves_of_next_eq e (Write.attach hs ha (.inr ⟨by omega, by omega⟩)).moves

theorem execSrvDetach_moves {h : Byte} {s t : State} (e : execSrvDetach h s = .next t) : Moves .plain s t := by
  obtain ⟨-, e⟩ := unlessFaulted_next e
  obtain ⟨sl, hs, ha, e⟩ := withHandle_next e
  exact moves_of_next_eq e (Write.detach hs ha).moves

theorem execRngNew_moves {trig : Byte} {temp echo : Half} {s t : State}
    (e : execRngNew trig temp echo s = .next t) : Moves .wiring s t := by
  obtain ⟨-, e⟩ := unlessFaulted_next e
  split at e
  · obtain ⟨hr, rfl⟩ := newDriver_next e
    exact (Write.driver hr).moves
  · cases e

/-- `pin.set` when it completes: the level is one, and the pin an input. -/
theorem execPinSet_next {p : Byte} {level : Half} {s t : State} (e : execPinSet p level s = .next t) :
    ∃ l, (getPin s p).dir = .input ∧ t = drivePin p l s := by
  obtain ⟨-, e⟩ := unlessFaulted_next e
  split at e
  · cases e
  · next l _ =>
    split at e
    · cases e
    · next hdir =>
      have hin : (getPin s p).dir = .input := by
        cases hd : (getPin s p).dir
        · rfl
        · exact absurd hd hdir
      exact ⟨l, hin, by simpa using e.symm⟩

theorem execPinSet_moves {p : Byte} {level : Half} {s t : State} (e : execPinSet p level s = .next t) :
    Moves .driving s t := by
  obtain ⟨l, hin, rfl⟩ := execPinSet_next e
  exact (Write.drive l hin).moves

theorem execCmdEdge_moves {s t : State} (e : execCmdEdge s = .next t) : Moves .plain s t := by
  obtain ⟨-, e⟩ := unlessFaulted_next e
  split at e
  · cases e
  · exact moves_of_next_eq e (directBody_moves (by decide) cmdEdgeBody_moves s)

theorem execMbxPut_moves {address command rep : Half} {s t : State}
    (e : execMbxPut address command rep s = .next t) : Moves .plain s t := by
  obtain ⟨-, e⟩ := unlessFaulted_next e
  split at e
  · cases e
  · exact moves_of_next_eq e (directBody_moves (by decide) (fun u => (Write.mailbox _ u).moves) s)

theorem execMbxFetch_moves {s t : State} (e : execMbxFetch s = .next t) : Moves .plain s t :=
  moves_of_unlessFaulted_next (f := fun u => (dispatch (u.setMbx none)).setRes (fetchResult u.mbx)) e
    (((Write.mailbox none s).moves.trans ((dispatch_background _).moves (by decide))).trans
      (Write.result _ _ _).moves)

theorem execDispCmd_moves {address command rep : Half} {s t : State}
    (e : execDispCmd address command rep s = .next t) : Moves .plain s t := by
  obtain ⟨-, e⟩ := unlessFaulted_next e
  split at e
  · cases e
  · split at e
    · cases e
    · next ht =>
      obtain ⟨s1, hcommand, e⟩ := andThen_eq_next e
      exact moves_of_next_eq e ((dispatchCommand_moves ht hcommand).trans (Write.result _ _ _).moves)

theorem execTurBuild_moves {yaw pitch roll trig echo : Byte} {temp : Half} {s t : State}
    (e : execTurBuild yaw pitch roll trig echo temp s = .next t) : Moves .wiring s t := by
  obtain ⟨-, e⟩ := unlessFaulted_next e
  split at e
  · cases e
  · split at e
    · cases e
    · next hr => exact moves_of_next_eq e (buildTurret_moves hr)

/-- What every word but `reset` does when it completes: a sequence of moves of its kind. -/
theorem exec_moves {i : Instr} {s t : State} (hi : i ≠ .reset) (e : exec i s = .next t) : Moves (wordKind i) s t := by
  cases i with
  | clkStart => exact execClkStart_moves e
  | clkNow => exact execClkNow_moves e
  | clkTick => exact execClkTick_moves e
  | srvInit => exact execSrvInit_moves e
  | srvNew pin => exact moves_of_unlessFaulted_next e (Write.register pin s).moves
  | srvAttach h => exact execSrvAttach_moves e
  | srvAttachl h lo hi => exact execSrvAttachl_moves e
  | srvWrite h value => exact writeAngle_moves (unlessFaulted_next e).2
  | srvWriteus h us => exact writeWidth_moves (unlessFaulted_next e).2
  | srvDetach h => exact execSrvDetach_moves e
  | srvIsr => exact execSrvIsr_moves e
  | rngNew trig temp echo => exact execRngNew_moves e
  | rngBegin => exact rngBegin_moves (unlessFaulted_next e).2
  | rngPoll => exact rngPoll_moves (unlessFaulted_next e).2
  | rngEnd => exact rngEnd_moves (unlessFaulted_next e).2
  | rngMeasure n => exact measure_moves (unlessFaulted_next e).2
  | rngEdge => exact execRngEdge_moves e
  | adv n => exact execAdv_moves e
  | pinSet pin level => exact execPinSet_moves e
  | irqOff => exact execIrqOff_moves e
  | irqOn => exact execIrqOn_moves e
  | reset => exact absurd rfl hi
  | cmdEdge => exact execCmdEdge_moves e
  | mbxPut address command rep => exact execMbxPut_moves e
  | mbxFetch => exact execMbxFetch_moves e
  | dispCmd address command rep => exact execDispCmd_moves e
  | turBuild yaw pitch roll trig echo temp => exact execTurBuild_moves e

/-! ### The step -/

/-- When a step answers a next state: a word was left, it decoded, its meaning completed, and `DISPATCH()` ran
after it. -/
theorem step_next {s t : State} (e : step s = .next t) :
    ∃ w rest i u, s.script = w :: rest ∧ decode w = .ok i ∧ exec i (s.setScript rest) = .next u ∧
      t = dispatch u := by
  unfold step fetch at e
  cases hs : s.script with
  | nil => simp [hs] at e
  | cons w rest =>
    simp only [hs] at e
    cases hd : decode w with
    | error why => rw [applyWord_of_error hd] at e; cases e
    | ok i =>
      rw [applyWord_of_ok hd] at e
      obtain ⟨u, hu, e⟩ := andThen_eq_next e
      exact ⟨w, rest, i, u, rfl, hd, hu, by simpa using e.symm⟩

theorem execReset_next {s t : State} (e : exec .reset s = .next t) :
    t = State.afterReset s.cfg (Config.t1CmpDraw s.draws) s.script (s.draws + 1) := by
  cases e
  rfl

/-- A property that holds after reset and that no script, no background and no write breaks is kept by every
step. -/
theorem step_keeps {P : State → Prop} (hscript : ∀ s v, P s → P (s.setScript v))
    (hreset : ∀ s cmp, P s → P (State.afterReset s.cfg cmp s.script (s.draws + 1)))
    (hu : ∀ s t, Underneath s t → P s → P t) (hw : ∀ k s t, Write k s t → P s → P t) {s t : State}
    (e : step s = .next t) (hs : P s) : P t := by
  obtain ⟨w, rest, i, u, -, -, hexec, rfl⟩ := step_next e
  have hs' : P (s.setScript rest) := hscript _ _ hs
  refine (dispatch_background u).keeps hu ?_
  by_cases hi : i = .reset
  · subst hi
    rw [execReset_next hexec]
    exact hreset _ _ hs'
  · exact (exec_moves hi hexec).keeps hu (hw _) hs'

end Sys2Proof.Machine
end

section
/-! The invariants of the Clock (10_state.md R27, R29), the multiplexer (R33 to R35), the turret (R40), the fault
and `TRACE` (R24, R26), and what no word takes back (R20, R33, R34): each is kept by what goes on underneath and by
every write of a word. -/

namespace Sys2Proof.Machine

/-! ### What the larger writes leave alone -/

theorem registerServo_eq (pin : Byte) (s : State) :
    ∃ srv res, registerServo pin s = (s.setSrv srv).setRes res := by
  obtain ⟨-, h⟩ | ⟨-, -, h⟩ | ⟨-, -, h⟩ := registerServo_cases pin s
  · exact ⟨s.srv, _, h⟩
  · exact ⟨s.srv, _, h⟩
  · exact ⟨_, _, h⟩

theorem attachSlot_writes (h : Nat) (sl : Slot) (lo hi : Half) (s : State) : ∃ srv pins t1,
    attachSlot h sl lo hi s = (((s.setSrv srv).setPins pins).setT1 t1).setRes .unit :=
  ⟨_, _, _, attachSlot_eq h sl lo hi s⟩

theorem detachSlot_writes (h : Nat) (sl : Slot) (s : State) : ∃ srv t1,
    detachSlot h sl s = ((s.setSrv srv).setT1 t1).setRes .unit :=
  ⟨_, _, detachSlot_eq h sl s⟩

theorem constructDriver_writes (trig : Byte) (temp : Half) (echo : Byte) (s : State) : ∃ rng pins,
    constructDriver trig temp echo s = ((s.setRng rng).setPins pins).setRes .unit := by
  obtain ⟨pins, h, -⟩ := constructDriver_eq trig temp echo s
  exact ⟨_, pins, h⟩

theorem drivePin_writes (p : Byte) (l : Level) (s : State) : ∃ pins edge,
    drivePin p l s = (s.setPins pins).setEdge edge :=
  ⟨_, _, drivePin_eq p l s⟩

/-- No move changes the configuration (log 1). -/
theorem Underneath.cfg {s t : State} (h : Underneath s t) : t.cfg = s.cfg := by
  cases h with
  | body src => exact (runBody_frame src s).cfg
  | clear src => cases src <;> rfl
  | mask => rfl
  | time => rfl
  | countT0 => exact (countT0_frame s).cfg
  | countT1 => rfl

theorem Write.cfg {k : WordKind} {s t : State} (h : Write k s t) : t.cfg = s.cfg := by
  cases h with
  | register pin => obtain ⟨_, _, e⟩ := registerServo_eq pin s; rw [e]; rfl
  | @attach h sl lo hi => obtain ⟨_, _, _, e⟩ := attachSlot_writes h sl lo hi s; rw [e]; rfl
  | @detach h sl => obtain ⟨_, _, e⟩ := detachSlot_writes h sl s; rw [e]; rfl
  | @driver trig temp echo => obtain ⟨_, _, e⟩ := constructDriver_writes trig temp echo s; rw [e]; rfl
  | @trigger d _ l => exact (pinWrite_frame _ _ _).cfg
  | @drive p _ l => obtain ⟨_, _, e⟩ := drivePin_writes p l s; rw [e]; rfl
  | _ => rfl

/-- `step_keeps` for an invariant that needs a well-formed configuration. -/
theorem step_keeps_of_wellFormed {P : State → Prop} (hscript : ∀ s v, P s → P (s.setScript v))
    (hreset : ∀ s cmp, P s → P (State.afterReset s.cfg cmp s.script (s.draws + 1)))
    (hu : ∀ s t, Underneath s t → P s → P t)
    (hw : ∀ k s t, s.cfg.wellFormed = true → Write k s t → P s → P t) {s t : State}
    (e : step s = .next t) (hc : s.cfg.wellFormed = true) (hs : P s) : P t :=
  (step_keeps (P := fun u => u.cfg.wellFormed = true ∧ P u) (fun _ v h => ⟨h.1, hscript _ v h.2⟩)
    (fun _ cmp h => ⟨h.1, hreset _ cmp h.2⟩) (fun _ _ m h => ⟨m.cfg ▸ h.1, hu _ _ m h.2⟩)
    (fun k _ _ m h => ⟨m.cfg ▸ h.1, hw k _ _ h.1 m h.2⟩) e ⟨hc, hs⟩).2

/-! ### The Clock -/

theorem ClockInv.congr {s t : State} (h : ClockInv s) (hc : t.cfg = s.cfg) (hk : t.clk = s.clk) (h0 : t.t0 = s.t0) :
    ClockInv t := by
  constructor
  case part_le => rw [hc, hk]; exact h.part_le
  case run_iff => rw [h0, hk]; exact h.run_iff
  case ie_iff => rw [h0, hk]; exact h.ie_iff
  case prescale => rw [h0, hk, hc]; exact h.prescale
  case cmp => rw [h0, hk, hc]; exact h.cmp
  case cnt_le => rw [h0]; exact h.cnt_le

/-- R29: a sub-counter above the threshold is folded at once. -/
theorem ClockInv.tickBody {s : State} (h : ClockInv s) : ClockInv (tickBody s) := by
  rw [tickBody_eq]
  split
  · exact { h with part_le := Nat.zero_le _ }
  · next hle => exact { h with part_le := Nat.le_of_not_lt hle }

theorem ClockInv.runBody (src : Source) {s : State} (h : ClockInv s) : ClockInv (runBody src s) := by
  cases src with
  | tick => exact h.tickBody
  | servo =>
    obtain ⟨h0, -, -, hk, -⟩ := isrBody_keeps s
    exact h.congr (isrBody_frame s).cfg hk h0
  | edge =>
    unfold Machine.runBody edgeBody
    dsimp only
    split <;> exact h.congr rfl rfl rfl

/-- R182: a counter not above its compare value stays so. -/
theorem ClockInv.countT0 {s : State} (h : ClockInv s) : ClockInv (countT0 s) := by
  have hle := h.cnt_le
  unfold Machine.countT0
  split
  · exact { h with cnt_le := Nat.zero_le _ }
  · next hne =>
    have hlt : s.t0.cnt.toNat ≠ s.t0.cmp.toNat := fun e => hne (BitVec.eq_of_toNat_eq e)
    exact { h with cnt_le := show (s.t0.cnt + 1).toNat ≤ s.t0.cmp.toNat by bv_omega }

theorem ClockInv.underneath {s t : State} (m : Underneath s t) (h : ClockInv s) : ClockInv t := by
  cases m with
  | body src => exact h.runBody src
  | clear src =>
    cases src with
    | tick => exact { h with }
    | servo => exact h.congr rfl rfl rfl
    | edge => exact h.congr rfl rfl rfl
  | mask => exact h.congr rfl rfl rfl
  | time => exact h.congr rfl rfl rfl
  | countT0 => exact h.countT0
  | countT1 => exact h.congr rfl rfl rfl

/-- R9 (a): the compare value of the tick timer fits its 8 bits. -/
theorem toNat_ofInt_clkCmp {c : Config} (hc : c.wellFormed = true) :
    ((BitVec.ofInt 8 c.clkCmp).toNat : Int) = c.clkCmp := by
  have hrange : 0 ≤ c.clkCmp ∧ c.clkCmp ≤ 255 := by
    simp only [Config.wellFormed, Bool.and_eq_true, decide_eq_true_eq] at hc
    omega
  rw [BitVec.toNat_ofInt]
  omega

theorem ClockInv.startClock {s : State} (h : ClockInv s) (hc : s.cfg.wellFormed = true) :
    ClockInv (startClock s) where
  part_le := h.part_le
  run_iff := rfl
  ie_iff := rfl
  prescale := fun _ => rfl
  cmp := fun _ => toNat_ofInt_clkCmp hc
  cnt_le := Nat.zero_le _

theorem ClockInv.write {k : WordKind} {s t : State} (hc : s.cfg.wellFormed = true) (m : Write k s t)
    (h : ClockInv s) : ClockInv t := by
  have hcfg := m.cfg
  cases m with
  | start => exact h.startClock hc
  | register pin => obtain ⟨_, _, e⟩ := registerServo_eq pin s; exact h.congr hcfg (by rw [e]; rfl) (by rw [e]; rfl)
  | @attach i sl lo hi =>
    obtain ⟨_, _, _, e⟩ := attachSlot_writes i sl lo hi s
    exact h.congr hcfg (by rw [e]; rfl) (by rw [e]; rfl)
  | @detach i sl =>
    obtain ⟨_, _, e⟩ := detachSlot_writes i sl s
    exact h.congr hcfg (by rw [e]; rfl) (by rw [e]; rfl)
  | @driver trig temp echo =>
    obtain ⟨_, _, e⟩ := constructDriver_writes trig temp echo s
    exact h.congr hcfg (by rw [e]; rfl) (by rw [e]; rfl)
  | trigger => exact h.congr hcfg (pinWrite_clk _ _ _) (pinWrite_t0 _ _ _)
  | @drive p _ l =>
    obtain ⟨_, _, e⟩ := drivePin_writes p l s
    exact h.congr hcfg (by rw [e]; rfl) (by rw [e]; rfl)
  | _ => exact h.congr rfl rfl rfl

theorem ClockInv.afterReset (c : Config) (cmp : Half) (script : List Word) (draws : Nat) :
    ClockInv (State.afterReset c cmp script draws) where
  part_le := Nat.zero_le _
  run_iff := rfl
  ie_iff := rfl
  prescale := fun h => by cases h
  cmp := fun h => by cases h
  cnt_le := Nat.zero_le _

/-- Settles O57: of the moves only `clk.start` configures T0, only the tick body writes the sub-counter, and only
T0's count its counter. -/
theorem stepKeepsClockInv : Obligations.StepKeepsClockInv := by
  unfold Obligations.StepKeepsClockInv
  intro s t hc hs e
  exact step_keeps_of_wellFormed (fun _ _ h => h.congr rfl rfl rfl) (fun _ _ _ => .afterReset _ _ _ _)
    (fun _ _ => ClockInv.underneath) (fun _ _ _ => ClockInv.write) e hc hs

end Sys2Proof.Machine
end

section
/-! The multiplexer's invariant (10_state.md R33 to R35), what no word takes back (R20, R33, R34), and the turret's
invariant (R40). -/

namespace Sys2Proof.Machine

/-! ### The channel (41_servo.md R135) -/

@[simp] theorem isrEndPulse_srv (s : State) : (isrEndPulse s).srv = s.srv := by
  unfold isrEndPulse
  split
  · rfl
  · split
    · split
      · exact pinWrite_srv _ _ _
      · rfl
    · rfl

@[simp] theorem isrStartPulse_srv (sl : Slot) (s : State) : (isrStartPulse sl s).srv = s.srv := by
  unfold isrStartPulse
  dsimp only
  split
  · exact pinWrite_srv _ _ _
  · rfl

theorem isrEndFrame_channel (s : State) : (isrEndFrame s).srv.channel = -1 := by
  unfold isrEndFrame setChannel
  rfl

/-- The handler goes on to the next channel, or back to -1 after the last slot. -/
theorem isrBody_channel (s : State) : (isrBody s).srv.channel =
    if (s.srv.channel + 1).toInt < (s.srvCount : Int) then s.srv.channel + 1 else -1 := by
  have hch : (setChannel ((isrEndPulse s).srv.channel + 1) (isrEndPulse s)).srv.channel = s.srv.channel + 1 := by
    rw [isrEndPulse_srv]
    rfl
  have hcount : (setChannel ((isrEndPulse s).srv.channel + 1) (isrEndPulse s)).srvCount = s.srvCount :=
    congrArg (·.slots.length) (isrEndPulse_srv s)
  unfold isrBody isrServe
  dsimp only
  rw [hch, hcount]
  split
  · split
    · rw [isrStartPulse_srv, hch]
    · exact hch
  · exact isrEndFrame_channel _

/-! ### The multiplexer -/

theorem ServoInv.congr {s t : State} (h : ServoInv s) (hc : t.cfg = s.cfg) (hs : t.srv = s.srv) (h1 : t.t1 = s.t1) :
    ServoInv t := by
  have hcount : t.srvCount = s.srvCount := congrArg (·.slots.length) hs
  constructor
  case count_le => rw [hcount]; exact h.count_le
  case owned => rw [hs]; exact h.owned
  case channel => rw [hs, hcount]; exact h.channel
  case ie_iff => rw [h1, active, hs]; exact h.ie_iff
  case prescale => rw [h1, hc]; exact h.prescale
  case limits => rw [hs, hc]; exact h.limits

/-- What goes on underneath keeps all of the invariant but the channel. -/
theorem ServoInv.of_frame {s t : State} (h : ServoInv s) (f : BackgroundFrame s t)
    (hch : t.srv.channel = -1 ∨ t.srv.channel.toNat < s.srvCount) : ServoInv t := by
  have hcount : t.srvCount = s.srvCount := congrArg List.length f.slots
  constructor
  case count_le => rw [hcount]; exact h.count_le
  case owned => rw [f.owned, f.slots]; exact h.owned
  case channel => rw [hcount]; exact hch
  case ie_iff => rw [f.t1ie, active, f.slots]; exact h.ie_iff
  case prescale => rw [f.t1ie, f.t1prescale, f.cfg]; exact h.prescale
  case limits => rw [f.slots, f.cfg]; exact h.limits

/-- R35: with at most twelve slots the channel never wraps. -/
theorem ServoInv.isrBody {s : State} (h : ServoInv s) : ServoInv (isrBody s) := by
  refine h.of_frame (isrBody_frame s) ?_
  have hle : s.srvCount ≤ 12 := h.count_le
  rw [isrBody_channel]
  split
  · next hlt =>
    refine .inr ?_
    obtain hch | hch := h.channel
    · rw [hch] at hlt ⊢
      have h0 : ((-1 : Byte) + 1).toInt = 0 := by decide
      have h0' : ((-1 : Byte) + 1).toNat = 0 := by decide
      omega
    · have hn : (s.srv.channel + 1).toNat = s.srv.channel.toNat + 1 := by bv_omega
      have hi := BitVec.toInt_eq_toNat_cond (s.srv.channel + 1)
      split at hi <;> omega
  · exact .inl rfl

theorem ServoInv.runBody (src : Source) {s : State} (h : ServoInv s) : ServoInv (runBody src s) := by
  cases src with
  | tick =>
    show ServoInv (Machine.tickBody s)
    rw [tickBody_eq]
    exact h.congr rfl rfl rfl
  | servo => exact h.isrBody
  | edge =>
    unfold Machine.runBody edgeBody
    dsimp only
    split <;> exact h.congr rfl rfl rfl

theorem ServoInv.underneath {s t : State} (m : Underneath s t) (h : ServoInv s) : ServoInv t := by
  cases m with
  | body src => exact h.runBody src
  | clear src =>
    cases src with
    | servo => exact { h with }
    | tick => exact h.congr rfl rfl rfl
    | edge => exact h.congr rfl rfl rfl
  | mask => exact h.congr rfl rfl rfl
  | time => exact h.congr rfl rfl rfl
  | countT0 => unfold Machine.countT0; split <;> exact h.congr rfl rfl rfl
  | countT1 => exact h.of_frame (countT1_frame s) h.channel

/-- R34: the default limits are ordered, and a well-formed configuration holds them in 16 bits of counts. -/
theorem defaultLimits {c : Config} (hc : c.wellFormed = true) :
    (BitVec.ofNat 16 minPulseUs).toNat ≤ (BitVec.ofNat 16 maxPulseUs).toNat ∧
      c.usToTicks (BitVec.ofNat 16 maxPulseUs).toNat ≤ 65535 := by
  have hrefresh : c.refreshTicks + c.guardTicks < 65536 := by
    simp only [Config.wellFormed, Bool.and_eq_true, decide_eq_true_eq] at hc
    omega
  have hmono : c.usToTicks (BitVec.ofNat 16 maxPulseUs).toNat ≤ c.refreshTicks :=
    Nat.div_le_div_right (Nat.mul_le_mul_right _ (by decide))
  exact ⟨by decide, by omega⟩

theorem lt_srvCount {s : State} {h : Nat} {sl : Slot} (hs : s.srv.slots[h]? = some sl) : h < s.srvCount :=
  (List.getElem?_eq_some_iff.mp hs).1

/-- An entry that is written back with the same answer to a test changes nothing for the whole list. -/
theorem any_set_of_eq {α : Type} (p : α → Bool) {x y : α} {l : List α} {n : Nat} (hn : l[n]? = some x)
    (hxy : p y = p x) : (l.set n y).any p = l.any p := by
  induction l generalizing n with
  | nil => rfl
  | cons z zs ih =>
    cases n with
    | zero =>
      obtain rfl : z = x := by simpa using hn
      simp [hxy]
    | succ n => simp [ih hn]

theorem ServoInv.attachSlot {s : State} {i : Nat} {sl : Slot} {lo hi : Half} (h : ServoInv s)
    (hs : s.srv.slots[i]? = some sl) (hl : lo.toNat ≤ hi.toNat ∧ s.cfg.usToTicks hi.toNat ≤ 65535) :
    ServoInv (attachSlot i sl lo hi s) := by
  have hi' := lt_srvCount hs
  have hactive : (s.srv.slots.set i { sl with minUs := lo, maxUs := hi, attached := true }).any (·.attached) = true :=
    List.any_eq_true.mpr ⟨{ sl with minUs := lo, maxUs := hi, attached := true }, List.mem_set hi' _, rfl⟩
  have hcount : (s.srv.slots.set i { sl with minUs := lo, maxUs := hi, attached := true }).length = s.srvCount :=
    List.length_set
  rw [attachSlot_eq]
  constructor
  case count_le => exact hcount.le.trans h.count_le
  case owned =>
    intro ho
    have := h.owned ho
    simp [this] at hs
  case channel => exact h.channel.imp id fun hlt => hlt.trans_eq hcount.symm
  case ie_iff =>
    refine Eq.trans ?_ hactive.symm
    show (if active s then s.t1 else _).ie = true
    split
    · next ha => rw [h.ie_iff, ha]
    · rfl
  case prescale =>
    show (if active s then s.t1 else _).ie = true → (if active s then s.t1 else _).prescale = s.cfg.srvPrescale
    split
    · exact h.prescale
    · exact fun _ => rfl
  case limits =>
    intro x hx
    obtain hx | rfl := List.mem_or_eq_of_mem_set hx
    · exact h.limits x hx
    · exact hl

theorem ServoInv.detachSlot {s : State} {i : Nat} {sl : Slot} (h : ServoInv s)
    (hs : s.srv.slots[i]? = some sl) (ha : sl.attached = true) : ServoInv (detachSlot i sl s) := by
  have hcount : (s.srv.slots.set i { sl with attached := false }).length = s.srvCount := List.length_set
  have hmem : sl ∈ s.srv.slots := List.mem_of_getElem? hs
  have hie : s.t1.ie = true := by
    rw [h.ie_iff]
    exact List.any_eq_true.mpr ⟨sl, hmem, ha⟩
  rw [detachSlot_eq]
  constructor
  case count_le => exact hcount.le.trans h.count_le
  case owned =>
    intro ho
    have := h.owned ho
    simp [this] at hs
  case channel => exact h.channel.imp id fun hlt => hlt.trans_eq hcount.symm
  case ie_iff =>
    show (if _ then s.t1 else _).ie = (s.srv.slots.set i { sl with attached := false }).any (·.attached)
    split
    · next hany => rw [hie, hany]
    · next hany => simpa using hany
  case prescale =>
    show (if _ then s.t1 else _).ie = true → (if _ then s.t1 else _).prescale = s.cfg.srvPrescale
    split
    · exact h.prescale
    · exact fun e => by cases e
  case limits =>
    intro x hx
    obtain hx | rfl := List.mem_or_eq_of_mem_set hx
    · exact h.limits x hx
    · exact h.limits sl hmem

theorem ServoInv.setSlot_ticks {s : State} {i : Nat} {sl : Slot} (ticks : Half) (h : ServoInv s)
    (hs : s.srv.slots[i]? = some sl) : ServoInv (setSlot i { sl with ticks := ticks } s) := by
  have hcount : (s.srv.slots.set i { sl with ticks := ticks }).length = s.srvCount := List.length_set
  have hany : (s.srv.slots.set i { sl with ticks := ticks }).any (·.attached) = active s := any_set_of_eq _ hs rfl
  constructor
  case count_le => exact hcount.le.trans h.count_le
  case owned =>
    intro ho
    have := h.owned ho
    simp [this] at hs
  case channel => exact h.channel.imp id fun hlt => hlt.trans_eq hcount.symm
  case ie_iff => exact h.ie_iff.trans hany.symm
  case prescale => exact h.prescale
  case limits =>
    intro x hx
    obtain hx | rfl := List.mem_or_eq_of_mem_set hx
    · exact h.limits x hx
    · exact h.limits sl (List.mem_of_getElem? hs)

theorem ServoInv.registerServo {s : State} (pin : Byte) (hc : s.cfg.wellFormed = true) (h : ServoInv s) :
    ServoInv (registerServo pin s) := by
  obtain ⟨-, e⟩ | ⟨-, -, e⟩ | ⟨ho, hn, e⟩ := registerServo_cases pin s
  · rw [e]; exact h.congr rfl rfl rfl
  · rw [e]; exact h.congr rfl rfl rfl
  have hle := h.count_le
  have hcount : (s.srv.slots ++ [newSlot s.cfg pin]).length = s.srvCount + 1 := by simp [State.srvCount]
  rw [e]
  constructor
  case count_le => exact hcount.le.trans (by omega)
  case owned => exact fun hf => by simp [ho] at hf
  case channel => exact h.channel.imp id fun hlt => (Nat.lt_succ_of_lt hlt).trans_eq hcount.symm
  case ie_iff =>
    refine h.ie_iff.trans ?_
    simp [active, newSlot]
  case prescale => exact h.prescale
  case limits =>
    intro x hx
    obtain hx | hx := List.mem_append.mp hx
    · exact h.limits x hx
    · obtain rfl := List.mem_singleton.mp hx
      exact defaultLimits hc

theorem ServoInv.write {k : WordKind} {s t : State} (hc : s.cfg.wellFormed = true) (m : Write k s t)
    (h : ServoInv s) : ServoInv t := by
  have hcfg := m.cfg
  cases m with
  | handOver => exact { h with owned := fun hf => by cases hf }
  | detach hs ha => exact h.detachSlot hs ha
  | width ticks hs => exact h.setSlot_ticks ticks hs
  | register pin => exact h.registerServo pin hc
  | attach hs _ hl =>
    refine h.attachSlot hs ?_
    obtain ⟨rfl, rfl⟩ | hl := hl
    · exact defaultLimits hc
    · exact hl
  | @driver trig temp echo =>
    obtain ⟨_, _, e⟩ := constructDriver_writes trig temp echo s
    exact h.congr hcfg (by rw [e]; rfl) (by rw [e]; rfl)
  | trigger => exact h.congr hcfg (pinWrite_srv _ _ _) (pinWrite_t1 _ _ _)
  | @drive p _ l =>
    obtain ⟨_, _, e⟩ := drivePin_writes p l s
    exact h.congr hcfg (by rw [e]; rfl) (by rw [e]; rfl)
  | _ => exact h.congr rfl rfl rfl

theorem ServoInv.afterReset (c : Config) (cmp : Half) (script : List Word) (draws : Nat) :
    ServoInv (State.afterReset c cmp script draws) where
  count_le := Nat.zero_le _
  owned := fun _ => rfl
  channel := .inl rfl
  ie_iff := rfl
  prescale := fun h => by cases h
  limits := fun _ h => by cases h

/-- Settles O29: of the moves only the handler body writes the channel, and only a registration, an attach, a
detach and a stored width the slots. -/
theorem stepKeepsServoInv : Obligations.StepKeepsServoInv := by
  unfold Obligations.StepKeepsServoInv
  intro s t hc hs e
  exact step_keeps_of_wellFormed (fun _ _ h => h.congr rfl rfl rfl) (fun _ _ _ => .afterReset _ _ _ _)
    (fun _ _ => ServoInv.underneath) (fun _ _ _ => ServoInv.write) e hc hs

/-! ### What no word but `reset` takes back (R20, R33, R34) -/

/-- The configuration stays, the slots keep their places and pins, and the hand-over stands. -/
structure Grows (s t : State) : Prop where
  cfg : t.cfg = s.cfg
  pins : (s.srv.slots.map (·.pin)) <+: (t.srv.slots.map (·.pin))
  owned : s.srv.owned = true → t.srv.owned = true

theorem Grows.trans {s t u : State} (h : Grows s t) (k : Grows t u) : Grows s u where
  cfg := k.cfg.trans h.cfg
  pins := h.pins.trans k.pins
  owned := fun ho => k.owned (h.owned ho)

theorem Grows.of_pins {s t : State} (hc : t.cfg = s.cfg)
    (hp : t.srv.slots.map (·.pin) = s.srv.slots.map (·.pin)) (ho : t.srv.owned = s.srv.owned) : Grows s t where
  cfg := hc
  pins := by rw [hp]
  owned := by rw [ho]; exact id

theorem Grows.of_eq {s t : State} (hc : t.cfg = s.cfg) (hs : t.srv = s.srv) : Grows s t :=
  .of_pins hc (by rw [hs]) (by rw [hs])

theorem Grows.of_frame {s t : State} (f : BackgroundFrame s t) : Grows s t where
  cfg := f.cfg
  pins := by rw [f.slots]
  owned := by rw [f.owned]; exact id

theorem Grows.length_le {s t : State} (h : Grows s t) : s.srv.slots.length ≤ t.srv.slots.length := by
  simpa using h.pins.length_le

/-- A slot written back with its pin leaves the list of pins as it was. -/
theorem map_pin_set {l : List Slot} {n : Nat} {x y : Slot} (hn : l[n]? = some x) (hp : y.pin = x.pin) :
    (l.set n y).map (·.pin) = l.map (·.pin) := by
  induction l generalizing n with
  | nil => rfl
  | cons z zs ih =>
    cases n with
    | zero =>
      obtain rfl : z = x := by simpa using hn
      simp [hp]
    | succ n => simp [ih hn]

theorem Grows.underneath {s t : State} (m : Underneath s t) : Grows s t := by
  have hc := m.cfg
  cases m with
  | body src => exact .of_frame (runBody_frame src s)
  | clear src => cases src <;> exact .of_eq rfl rfl
  | mask => exact .of_eq rfl rfl
  | time => exact .of_eq rfl rfl
  | countT0 => exact .of_frame (countT0_frame s)
  | countT1 => exact .of_eq rfl rfl

theorem Grows.write {k : WordKind} {s t : State} (m : Write k s t) : Grows s t := by
  have hc := m.cfg
  cases m with
  | handOver => exact ⟨rfl, List.prefix_rfl, fun _ => rfl⟩
  | @detach i sl _ hs =>
    rw [detachSlot_eq] at hc ⊢
    exact .of_pins hc (map_pin_set hs rfl) rfl
  | width ticks hs => exact .of_pins rfl (map_pin_set hs rfl) rfl
  | register pin =>
    obtain ⟨-, e⟩ | ⟨-, -, e⟩ | ⟨ho, hn, e⟩ := registerServo_cases pin s
    · rw [e]; exact .of_eq rfl rfl
    · rw [e]; exact .of_eq rfl rfl
    · rw [e]
      exact ⟨rfl, by simp, id⟩
  | @attach i sl lo hi _ hs =>
    rw [attachSlot_eq] at hc ⊢
    exact .of_pins hc (map_pin_set hs rfl) rfl
  | @driver trig temp echo =>
    obtain ⟨_, _, e⟩ := constructDriver_writes trig temp echo s
    rw [e]; exact .of_eq rfl rfl
  | trigger => exact .of_frame (pinWrite_frame _ _ _)
  | @drive p _ l =>
    obtain ⟨_, _, e⟩ := drivePin_writes p l s
    rw [e]; exact .of_eq rfl rfl
  | _ => exact .of_eq rfl rfl

theorem Moves.grows {k : WordKind} {s t : State} (h : Moves k s t) : Grows s t :=
  h.keeps (P := Grows s) (fun _ _ m g => g.trans (.underneath m)) (fun _ _ m g => g.trans (.write m)) (.of_eq rfl rfl)

/-- Settles O30: every move keeps the configuration, the list of pins up to new ones at its end, and the
hand-over. -/
theorem registeredSlotsStay : Obligations.RegisteredSlotsStay := by
  unfold Obligations.RegisteredSlotsStay
  intro i s t hi e
  have g := (exec_moves hi e).grows
  exact ⟨g.cfg, g.length_le, g.pins, g.owned⟩

/-! ### The turret (R40) -/

theorem TurretInv.of_eq {s t : State} (h : TurretInv s) (g : Grows s t) (ht : t.tur = s.tur)
    (hr : s.rng.cfg.isSome = true → t.rng.cfg.isSome = true) : TurretInv t := by
  constructor
  case pitch => rw [ht, g.cfg]; exact h.pitch
  case handles =>
    intro tu htu
    obtain ⟨h1, h2, h3⟩ := h.handles tu (ht ▸ htu)
    exact ⟨h1, h2, h3.trans_le g.length_le⟩
  case driver => rw [ht]; exact fun hs => hr (h.driver hs)

theorem TurretInv.underneath {s t : State} (m : Underneath s t) (h : TurretInv s) : TurretInv t := by
  have g : Grows s t := .underneath m
  cases m with
  | body src =>
    have f := runBody_frame src s
    exact h.of_eq g f.tur (by rw [f.driver]; exact id)
  | clear src => cases src <;> exact h.of_eq g rfl id
  | mask => exact h.of_eq g rfl id
  | time => exact h.of_eq g rfl id
  | countT0 =>
    have f := countT0_frame s
    exact h.of_eq g f.tur (by rw [f.driver]; exact id)
  | countT1 => exact h.of_eq g rfl id

/-- R213, R214: a pitch moved within the bounds stays within them. -/
theorem TurretInv.setPitch {s : State} {tu : Turret} {new : Nat} (h : TurretInv s) (ht : s.tur = some tu)
    (hn : s.cfg.pitchMin ≤ new ∧ new ≤ tu.pitch ∨ tu.pitch ≤ new ∧ new ≤ s.cfg.pitchMax) :
    TurretInv (s.setTur (some { tu with pitch := new })) := by
  obtain ⟨hmin, hmax⟩ := h.pitch tu ht
  constructor
  case pitch =>
    intro tu' e
    obtain rfl : { tu with pitch := new } = tu' := by simpa using e
    show s.cfg.pitchMin ≤ new ∧ new ≤ s.cfg.pitchMax
    omega
  case handles =>
    intro tu' e
    obtain rfl : { tu with pitch := new } = tu' := by simpa using e
    exact h.handles tu ht
  case driver => exact fun _ => h.driver (by rw [ht]; rfl)

theorem TurretInv.setTurret {s : State} {y p r : Nat} (hc : s.cfg.wellFormed = true) (hy : y < p) (hp : p < r)
    (hr : r < s.srvCount) (hd : s.rng.cfg.isSome = true) :
    TurretInv (s.setTur (some { pitch := s.cfg.pitchInit, yaw := y, pit := p, roll := r })) := by
  have hpitch : s.cfg.pitchMin ≤ s.cfg.pitchInit ∧ s.cfg.pitchInit ≤ s.cfg.pitchMax := by
    simp only [Config.wellFormed, Bool.and_eq_true, decide_eq_true_eq] at hc
    omega
  constructor
  case pitch =>
    intro tu' e
    obtain rfl := Option.some.inj e
    exact hpitch
  case handles =>
    intro tu' e
    obtain rfl := Option.some.inj e
    exact ⟨hy, hp, hr⟩
  case driver => exact fun _ => hd

theorem TurretInv.write {k : WordKind} {s t : State} (hc : s.cfg.wellFormed = true) (m : Write k s t)
    (h : TurretInv s) : TurretInv t := by
  have g : Grows s t := .write m
  cases m with
  | pitch ht hn => exact h.setPitch ht hn
  | turret hy hp hr hd => exact .setTurret hc hy hp hr hd
  | register pin =>
    obtain ⟨_, _, e⟩ := registerServo_eq pin s
    exact h.of_eq g (by rw [e]; rfl) (by rw [e]; exact id)
  | @attach i sl lo hi =>
    obtain ⟨_, _, _, e⟩ := attachSlot_writes i sl lo hi s
    exact h.of_eq g (by rw [e]; rfl) (by rw [e]; exact id)
  | @detach i sl =>
    obtain ⟨_, _, e⟩ := detachSlot_writes i sl s
    exact h.of_eq g (by rw [e]; rfl) (by rw [e]; exact id)
  | @driver trig temp echo =>
    obtain ⟨_, e, -⟩ := constructDriver_eq trig temp echo s
    exact h.of_eq g (by rw [e]; rfl) (by rw [e]; exact fun _ => rfl)
  | @trigger d _ l =>
    have f := pinWrite_frame d.trig l s
    exact h.of_eq g f.tur (by rw [f.driver]; exact id)
  | ranging r _ hr => exact h.of_eq g rfl (by rw [State.setRng_rng, hr]; exact id)
  | @drive p _ l =>
    obtain ⟨_, _, e⟩ := drivePin_writes p l s
    exact h.of_eq g (by rw [e]; rfl) (by rw [e]; exact id)
  | _ => exact h.of_eq g rfl id

theorem TurretInv.afterReset (c : Config) (cmp : Half) (script : List Word) (draws : Nat) :
    TurretInv (State.afterReset c cmp script draws) where
  pitch := fun _ h => by cases h
  handles := fun _ h => by cases h
  driver := fun h => by cases h

/-- Settles O55: only a pitch move within the bounds and the build, which has three registered handles and a
driver, write the turret; handles stay registered and the driver constructed. -/
theorem stepKeepsTurretInv : Obligations.StepKeepsTurretInv := by
  unfold Obligations.StepKeepsTurretInv
  intro s t hc hs e
  exact step_keeps_of_wellFormed (fun _ _ h => h.of_eq (.of_eq rfl rfl) rfl id) (fun _ _ _ => .afterReset _ _ _ _)
    (fun _ _ => TurretInv.underneath) (fun _ _ _ => TurretInv.write) e hc hs

end Sys2Proof.Machine
end

section
/-! The ranging unit (10_state.md R36 to R38, 42_ranging.md R150 to R161): its invariant, its transitions and the
laws of its result. -/

namespace Sys2Proof.Machine

/-! ### The timestamps -/

/-- Measuring has its trigger timestamp, and an echo timestamp never stands without one (R158). -/
structure StampInv (s : State) : Prop where
  trig : s.rng.state = .measuring → s.rng.trigTime.isSome = true
  echo : s.rng.echoTime.isSome = true → s.rng.trigTime.isSome = true

theorem StampInv.congr {s t : State} (h : StampInv s) (hr : t.rng = s.rng) : StampInv t := by
  constructor
  · rw [hr]; exact h.trig
  · rw [hr]; exact h.echo

/-- Only the edge handler writes a timestamp, and the state says which. -/
theorem Underneath.rng {s t : State} (m : Underneath s t) :
    t.rng = s.rng ∨
    (s.rng.state = .triggered ∧ t.rng = { s.rng with trigTime := some (nowValue s) }) ∨
    (s.rng.state = .measuring ∧ t.rng = { s.rng with echoTime := some (nowValue s) }) := by
  cases m with
  | body src =>
    cases src with
    | tick => exact .inl (by rw [runBody, tickBody_eq]; rfl)
    | servo => exact .inl (isrBody_keeps s).2.2.2.2.1
    | edge =>
      cases hs : s.rng.state with
      | idle => exact .inl (congrArg State.rng (edgeBody_of_idle hs))
      | triggered => exact .inr (.inl ⟨rfl, congrArg State.rng (edgeBody_of_triggered hs)⟩)
      | measuring => exact .inr (.inr ⟨rfl, congrArg State.rng (edgeBody_of_measuring hs)⟩)
  | clear src => cases src <;> exact .inl rfl
  | mask => exact .inl rfl
  | time => exact .inl rfl
  | countT0 => unfold Machine.countT0; split <;> exact .inl rfl
  | countT1 => exact .inl rfl

theorem StampInv.underneath {s t : State} (m : Underneath s t) (h : StampInv s) : StampInv t := by
  obtain e | ⟨hs, e⟩ | ⟨hs, e⟩ := m.rng
  · exact h.congr e
  · constructor
    · intro _; rw [e]; rfl
    · intro _; rw [e]; rfl
  · constructor
    · intro _; rw [e]; exact h.trig hs
    · intro _; rw [e]; exact h.trig hs

/-! ### The invariant -/

/-- The invariant reads the state, `MAIN.meas`, the mode, the driver, its trigger pin's direction and the
timestamps. -/
theorem RangingInv.of_stamps {s t : State} (h : RangingInv s) (hc : t.cfg = s.cfg)
    (hs : t.rng.state = s.rng.state) (hd : t.rng.cfg = s.rng.cfg) (hm : t.meas = s.meas)
    (he : t.edge.mode = s.edge.mode)
    (hp : ∀ p, (getPin s p).dir = .output → (getPin t p).dir = .output) (st : StampInv t) : RangingInv t where
  meas_iff := by rw [hm, hs]; exact h.meas_iff
  mode := by rw [he, hs]; exact h.mode
  driver := by rw [hs, hd]; exact h.driver
  trig := st.trig
  echo := st.echo
  checked := by rw [hd, hc]; exact h.checked
  trigger := by rw [hd]; exact fun d e => hp _ (h.trigger d e)

theorem RangingInv.stamps {s : State} (h : RangingInv s) : StampInv s := ⟨h.trig, h.echo⟩

theorem RangingInv.of_frame {s t : State} (h : RangingInv s) (f : BackgroundFrame s t) (st : StampInv t) :
    RangingInv t :=
  h.of_stamps f.cfg f.rngState f.driver f.meas f.mode (fun p e => (f.dir p).trans e) st

theorem RangingInv.congr {s t : State} (h : RangingInv s) (hc : t.cfg = s.cfg) (hr : t.rng = s.rng)
    (hm : t.meas = s.meas) (he : t.edge.mode = s.edge.mode) (hp : t.pins = s.pins) : RangingInv t :=
  h.of_stamps hc (by rw [hr]) (by rw [hr]) hm he (fun p e => (congrArg Pin.dir (getPin_congr p hp)).trans e)
    (h.stamps.congr hr)

theorem RangingInv.underneath {s t : State} (m : Underneath s t) (h : RangingInv s) : RangingInv t := by
  have st : StampInv t := h.stamps.underneath m
  cases m with
  | body src => exact h.of_frame (runBody_frame src s) st
  | clear src => cases src <;> exact h.congr rfl rfl rfl rfl rfl
  | mask => exact h.congr rfl rfl rfl rfl rfl
  | time => exact h.congr rfl rfl rfl rfl rfl
  | countT0 => exact h.of_frame (countT0_frame s) st
  | countT1 => exact h.congr rfl rfl rfl rfl rfl

theorem RangingInv.dispatch {s : State} (h : RangingInv s) : RangingInv (dispatch s) :=
  (dispatch_background s).keeps (fun _ _ => RangingInv.underneath) h

theorem RangingInv.advance (n : Nat) {s : State} (h : RangingInv s) : RangingInv (advance n s) :=
  (advance_background n s).keeps (fun _ _ => RangingInv.underneath) h

/-- R151: the driver that `rng.new` stores passed its checks, and its trigger pin is an output. -/
theorem RangingInv.constructDriver {s : State} {trig : Byte} {temp : Half} {echo : Byte} (h : RangingInv s)
    (hr : driverRefusal trig temp echo s = none) : RangingInv (constructDriver trig temp echo s) := by
  obtain ⟨hnone, hne, hsound⟩ := driverRefusal_none hr
  obtain ⟨pins, e, hpins⟩ := constructDriver_eq trig temp echo s
  rw [e]
  constructor
  case meas_iff => exact h.meas_iff
  case mode => exact h.mode
  case driver => exact fun _ => rfl
  case trig => exact h.trig
  case echo => exact h.echo
  case checked =>
    intro d hd
    obtain rfl := Option.some.inj hd
    exact ⟨hne, hsound⟩
  case trigger =>
    intro d hd
    obtain rfl := Option.some.inj hd
    have hp : (getPin (s.setPins pins) trig).dir = .output := by rw [hpins]; simp [hne]
    exact hp

/-- An attach makes its pin an output and leaves the other directions. -/
theorem attachSlot_dir {h : Nat} {sl : Slot} {lo hi : Half} {s : State} (p : Byte) :
    (getPin (attachSlot h sl lo hi s) p).dir = if sl.pin = p then .output else (getPin s p).dir := by
  rw [attachSlot_eq]
  have hp := congrArg Pin.dir (getPin_setPin s sl.pin p { getPin s sl.pin with dir := .output })
  refine hp.trans ?_
  split <;> rfl

theorem drivePin_dir (p q : Byte) (l : Level) (s : State) : (getPin (drivePin p l s) q).dir = (getPin s q).dir := by
  rw [drivePin_eq]
  exact getPin_setPinLevel_dir s p q l

/-- Outside the words of the measurement only `rng.new` and the attaches write what the invariant reads. -/
theorem RangingInv.write {k : WordKind} {s t : State} (hk : k ≠ .measuring) (m : Write k s t)
    (h : RangingInv s) : RangingInv t := by
  have hcfg := m.cfg
  cases m with
  | register pin =>
    obtain ⟨_, _, e⟩ := registerServo_eq pin s
    rw [e]
    exact h.congr rfl rfl rfl rfl rfl
  | @attach i sl lo hi =>
    have hr : (attachSlot i sl lo hi s).rng = s.rng := by rw [attachSlot_eq]; rfl
    refine h.of_stamps hcfg (by rw [hr]) (by rw [hr]) (by rw [attachSlot_eq]; rfl) (by rw [attachSlot_eq]; rfl)
      (fun p e => ?_) (h.stamps.congr hr)
    rw [attachSlot_dir, e, ite_self]
  | @detach i sl =>
    rw [detachSlot_eq] at hcfg ⊢
    exact h.congr hcfg rfl rfl rfl rfl
  | driver hr => exact h.constructDriver hr
  | @drive p _ l =>
    have hr : (drivePin p l s).rng = s.rng := by rw [drivePin_eq]; rfl
    exact h.of_stamps hcfg (by rw [hr]) (by rw [hr]) (by rw [drivePin_eq]; rfl) (by rw [drivePin_eq]; rfl)
      (fun q e => (drivePin_dir p q l s).trans e) (h.stamps.congr hr)
  | trigger => exact absurd rfl hk
  | ranging => exact absurd rfl hk
  | edge => exact absurd rfl hk
  | meas => exact absurd rfl hk
  | raise => exact absurd rfl hk
  | _ => exact h.congr rfl rfl rfl rfl rfl

/-! ### The words of the measurement -/

/-- What goes on underneath leaves the timestamps of an Idle unit alone. -/
theorem Background.rng_of_idle {s t : State} (h : Background s t) (hs : s.rng.state = .idle) : t.rng = s.rng :=
  (h.keeps (P := fun u => u.rng = s.rng) (fun u v m e => by
    obtain e' | ⟨hu, -⟩ | ⟨hu, -⟩ := m.rng
    · exact e'.trans e
    · rw [e, hs] at hu; cases hu
    · rw [e, hs] at hu; cases hu) rfl)

/-- In Triggered the echo timestamp is not written. -/
theorem Background.echoTime_of_triggered {s t : State} (h : Background s t) (hs : s.rng.state = .triggered) :
    t.rng.state = .triggered ∧ t.rng.echoTime = s.rng.echoTime :=
  h.keeps (P := fun u => u.rng.state = .triggered ∧ u.rng.echoTime = s.rng.echoTime) (fun u v m e => by
    obtain e' | ⟨-, e'⟩ | ⟨hu, -⟩ := m.rng
    · rw [e']; exact e
    · rw [e']; exact e
    · rw [e.1] at hu; cases hu) ⟨hs, rfl⟩

theorem triggerPulse_background (d : Driver) (s : State) (hs : s.rng.state = .idle) :
    (triggerPulse d s).rng = s.rng := by
  unfold triggerPulse
  dsimp only
  rw [pinWrite_rng]
  have h1 : (Machine.advance (settleUs * s.cfg.cycPerUs) (pinWrite d.trig .low s)).rng = s.rng :=
    ((advance_background _ _).rng_of_idle (by rw [pinWrite_rng]; exact hs)).trans (pinWrite_rng _ _ _)
  refine ((advance_background _ _).rng_of_idle ?_).trans ((pinWrite_rng _ _ _).trans h1)
  rw [pinWrite_rng, h1, hs]

/-- A begun measurement has no echo timestamp: both were cleared in Idle, and Triggered writes the other. -/
theorem beginMeasure_echoTime (d : Driver) (s : State) (hs : s.rng.state = .idle) :
    (beginMeasure d s).rng.echoTime = none := by
  have hclear : (clearTimestamps s).rng = { s.rng with trigTime := none, echoTime := none } := by
    rw [clearTimestamps_eq]
    exact (dispatch_background _).rng_of_idle hs
  have hpulse : (triggerPulse d (clearTimestamps s)).rng = { s.rng with trigTime := none, echoTime := none } :=
    (triggerPulse_background d _ (by rw [hclear]; exact hs)).trans hclear
  unfold beginMeasure
  generalize triggerPulse d (clearTimestamps s) = u at hpulse ⊢
  have htrig : (goTriggered u).rng.state = .triggered ∧ (goTriggered u).rng.echoTime = none := by
    rw [goTriggered_eq]
    obtain ⟨hst, hecho⟩ := (dispatch_background (u.setRng { u.rng with state := .triggered })).echoTime_of_triggered rfl
    exact ⟨hst, hecho.trans (congrArg Ranging.echoTime hpulse)⟩
  have hloop := (dispatch_background (setEdgeMode .rising (goTriggered u))).echoTime_of_triggered htrig.1
  rw [enterLoop_eq]
  exact hloop.2.trans htrig.2

theorem RangingInv.beginMeasure {s : State} {d : Driver} (h : RangingInv s) (hd : s.rng.cfg = some d)
    (hs : s.rng.state = .idle) : RangingInv (beginMeasure d s) := by
  obtain ⟨start, hmeas, f⟩ := beginMeasure_frame d s
  have hst : (Machine.beginMeasure d s).rng.state = .triggered := f.rngState
  have hecho := beginMeasure_echoTime d s hs
  constructor
  case meas_iff => rw [hmeas, hst]; simp
  case mode => rw [hst]; exact f.mode
  case driver => exact fun _ => by rw [f.driver]; exact Option.isSome_iff_exists.mpr ⟨d, hd⟩
  case trig => rw [hst]; exact fun e => by cases e
  case echo => rw [hecho]; exact fun e => by cases e
  case checked => rw [f.driver, f.cfg]; exact h.checked
  case trigger =>
    rw [f.driver]
    exact fun d' e => (f.dir _).trans (h.trigger d' e)

theorem RangingInv.rngBegin {s t : State} (h : RangingInv s) (e : rngBegin s = .next t) : RangingInv t := by
  have f := dispatch_frame s
  obtain ⟨d, hd, ⟨hs, rfl⟩ | ⟨-, rfl⟩⟩ := rngBegin_next e
  · exact h.dispatch.beginMeasure (f.driver.trans hd) (f.rngState.trans hs)
  · exact h.dispatch.congr rfl rfl rfl rfl rfl

/-- R158: a measurement in the loop may decide to exit. -/
theorem RangingInv.setExiting {s : State} (h : RangingInv s) (hs : s.rng.state ≠ .idle) :
    RangingInv (s.setMeas .exiting) :=
  { h with meas_iff := ⟨fun e => (by cases e), fun e => absurd e hs⟩ }

theorem RangingInv.rearm {s : State} (h : RangingInv s) : RangingInv (rearm s) := by
  by_cases hdue : s.rng.state = .triggered ∧ s.rng.trigTime.isSome = true
  · obtain ⟨hs, htrig⟩ := hdue
    have hne : s.rng.state ≠ .idle := by rw [hs]; decide
    rw [rearm_of_due ⟨hs, htrig⟩]
    constructor
    case meas_iff => exact ⟨fun e => absurd (h.meas_iff.mp e) hne, fun e => by cases e⟩
    case mode => rfl
    case driver => exact fun _ => h.driver hne
    case trig => exact fun _ => htrig
    case echo => exact fun _ => htrig
    case checked => exact h.checked
    case trigger => exact h.trigger
  · rw [rearm_of_not_due hdue]
    exact h

/-- One pass keeps the state of the unit, or goes from Triggered to Measuring. -/
theorem rearm_state (s : State) : (rearm s).rng.state = s.rng.state ∨
    s.rng.state = .triggered ∧ (rearm s).rng.state = .measuring := by
  by_cases hdue : s.rng.state = .triggered ∧ s.rng.trigTime.isSome = true
  · rw [rearm_of_due hdue]
    exact .inr ⟨hdue.1, rfl⟩
  · rw [rearm_of_not_due hdue]
    exact .inl rfl

theorem pollPass_state (start : Quad) (s : State) : (pollPass start s).rng.state = s.rng.state ∨
    s.rng.state = .triggered ∧ (pollPass start s).rng.state = .measuring := by
  have hdisp : ∀ u, (Machine.dispatch u).rng.state = u.rng.state := fun u => (dispatch_frame u).rngState
  have hrearm := rearm_state (Machine.dispatch s)
  rw [hdisp s, ← hdisp (Machine.rearm _)] at hrearm
  rw [pollPass_eq]
  split
  · exact .inl (hdisp s)
  · split
    · exact hrearm
    · exact hrearm

theorem RangingInv.pollPass {s : State} {start : Quad} (h : RangingInv s) (hs : s.rng.state ≠ .idle) :
    RangingInv (pollPass start s) := by
  have hs' : (Machine.dispatch s).rng.state ≠ .idle := by rw [(dispatch_frame s).rngState]; exact hs
  have hrearm := h.dispatch.rearm.dispatch
  have hne : (Machine.dispatch (Machine.rearm (Machine.dispatch s))).rng.state ≠ .idle := by
    rw [(dispatch_frame _).rngState]
    obtain e | ⟨-, e⟩ := rearm_state (Machine.dispatch s)
    · rw [e]; exact hs'
    · rw [e]; decide
  rw [pollPass_eq]
  split
  · exact h.dispatch.setExiting hs'
  · split
    · exact hrearm.setExiting hne
    · exact hrearm

theorem RangingInv.rngPoll {s t : State} (h : RangingInv s) (e : rngPoll s = .next t) : RangingInv t := by
  obtain ⟨start, hm, rfl⟩ := rngPoll_next e
  refine h.pollPass fun hs => ?_
  have := h.meas_iff.mpr hs
  rw [hm] at this
  cases this

/-- What `rng.end` leaves, beside what goes on underneath: Idle, disarmed, out of the measurement. -/
theorem endMeasure_frame (s : State) : BackgroundFrame
    ((((setEdgeMode .off s).setRng { s.rng with state := .idle }).setMeas .noMeas).setRes
      (rangingResult s.rng.trigTime s.rng.echoTime)) (endMeasure s) := by
  have f := dispatch_frame ((setEdgeMode .off s).setRng { s.rng with state := .idle })
  rw [endMeasure_eq]
  exact { f with meas := rfl, res := rfl, dir := f.dir }

theorem RangingInv.endMeasure {s : State} (h : RangingInv s) : RangingInv (endMeasure s) := by
  have f := endMeasure_frame s
  have hr : (Machine.endMeasure s).rng = { s.rng with state := .idle } := by
    rw [endMeasure_eq]
    exact (dispatch_background _).rng_of_idle rfl
  constructor
  case meas_iff => rw [f.meas, hr]; simp
  case mode => rw [f.mode, hr]; rfl
  case driver => rw [hr]; exact fun e => absurd rfl e
  case trig => rw [hr]; exact fun e => by cases e
  case echo => rw [hr]; exact h.echo
  case checked => rw [hr, f.cfg]; exact h.checked
  case trigger => rw [hr]; exact fun d e => (f.dir _).trans (h.trigger d e)

theorem RangingInv.rngEnd {s t : State} (h : RangingInv s) (e : rngEnd s = .next t) : RangingInv t := by
  obtain ⟨-, rfl⟩ := rngEnd_next e
  exact h.endMeasure

theorem RangingInv.measure {n : Nat} {s t : State} (h : RangingInv s) (e : measure n s = .next t) :
    RangingInv t := by
  obtain ⟨-, b, hb, ⟨-, rfl⟩ | ⟨-, hloop⟩⟩ := measure_next e
  · exact h.rngBegin hb
  · exact measureLoop_keeps (P := RangingInv) (fun _ _ h e => h.rngPoll e) (fun _ h => h.dispatch)
      (fun m _ h => h.advance m) (fun _ _ h e => h.rngEnd e) _ n _ t (h.rngBegin hb).dispatch hloop

theorem RangingInv.afterReset (c : Config) (cmp : Half) (script : List Word) (draws : Nat) :
    RangingInv (State.afterReset c cmp script draws) where
  meas_iff := ⟨fun _ => rfl, fun _ => rfl⟩
  mode := rfl
  driver := fun h => absurd rfl h
  trig := fun h => by cases h
  echo := fun h => by cases h
  checked := fun _ h => by cases h
  trigger := fun _ h => by cases h

theorem RangingInv.moves {k : WordKind} {s t : State} (hk : k ≠ .measuring) (h : RangingInv s) (m : Moves k s t) :
    RangingInv t :=
  m.keeps (fun _ _ => RangingInv.underneath) (fun _ _ => RangingInv.write hk) h

theorem RangingInv.exec {i : Instr} {s t : State} (h : RangingInv s) (e : exec i s = .next t) : RangingInv t := by
  by_cases hreset : i = .reset
  · subst hreset
    rw [execReset_next e]
    exact .afterReset _ _ _ _
  by_cases hk : wordKind i = .measuring
  · cases i with
    | rngBegin => exact h.rngBegin (unlessFaulted_next e).2
    | rngPoll => exact h.rngPoll (unlessFaulted_next e).2
    | rngEnd => exact h.rngEnd (unlessFaulted_next e).2
    | rngMeasure n => exact h.measure (unlessFaulted_next e).2
    | _ => cases hk
  · exact h.moves hk (exec_moves hreset e)

/-- Settles O40: each word of the measurement takes the unit from one of its three positions to another; every
other word leaves them, and so does `DISPATCH()`. -/
theorem stepKeepsRangingInv : Obligations.StepKeepsRangingInv := by
  unfold Obligations.StepKeepsRangingInv
  intro s t h e
  obtain ⟨w, rest, i, u, -, -, hexec, rfl⟩ := step_next e
  have hs : RangingInv (s.setScript rest) := h.congr rfl rfl rfl rfl rfl
  exact (hs.exec hexec).dispatch

/-! ### The transitions (R150) -/

theorem Underneath.rngState {s t : State} (m : Underneath s t) : t.rng.state = s.rng.state := by
  obtain e | ⟨-, e⟩ | ⟨-, e⟩ := m.rng <;> rw [e]

theorem Write.rngState {k : WordKind} {s t : State} (hk : k ≠ .measuring) (m : Write k s t) :
    t.rng.state = s.rng.state := by
  cases m with
  | register pin => obtain ⟨_, _, e⟩ := registerServo_eq pin s; rw [e]; rfl
  | @attach i sl lo hi => obtain ⟨_, _, _, e⟩ := attachSlot_writes i sl lo hi s; rw [e]; rfl
  | @detach i sl => obtain ⟨_, _, e⟩ := detachSlot_writes i sl s; rw [e]; rfl
  | @driver trig temp echo => obtain ⟨_, e, -⟩ := constructDriver_eq trig temp echo s; rw [e]; rfl
  | @drive p _ l => obtain ⟨_, _, e⟩ := drivePin_writes p l s; rw [e]; rfl
  | trigger => exact absurd rfl hk
  | ranging => exact absurd rfl hk
  | edge => exact absurd rfl hk
  | meas => exact absurd rfl hk
  | raise => exact absurd rfl hk
  | _ => rfl

theorem endMeasure_state (s : State) : (endMeasure s).rng.state = .idle := (endMeasure_frame s).rngState

/-- The loop of `rng.measure` completes with its `rng.end`. -/
theorem measureLoop_next : ∀ {k n : Nat} {s t : State}, measureLoop k n s = .next t → ∃ u, rngEnd u = .next t
  | 0, _, _, _, e => by cases e
  | k + 1, n, s, t, e => by
    unfold measureLoop at e
    split at e
    · dsimp only at e
      split at e
      · exact ⟨_, e⟩
      · split at e
        · cases e
        · exact measureLoop_next e
    · cases e
    · cases e

theorem rngBegin_state {s t : State} (e : rngBegin s = .next t) :
    s.rng.state = .idle ∧ t.rng.state = .triggered ∨ s.rng.state ≠ .idle ∧ t.rng.state = s.rng.state := by
  obtain ⟨d, -, ⟨hs, rfl⟩ | ⟨hs, rfl⟩⟩ := rngBegin_next e
  · obtain ⟨_, -, f⟩ := beginMeasure_frame d (dispatch s)
    exact .inl ⟨hs, f.rngState⟩
  · exact .inr ⟨hs, (dispatch_frame s).rngState⟩

/-- `rng.measure` from Idle is back in Idle; in flight it raises the fault and leaves the state. -/
theorem measure_state {n : Nat} {s t : State} (hnone : s.fault = none) (e : measure n s = .next t) :
    t.rng.state = s.rng.state := by
  obtain ⟨-, b, hb, ⟨hf, rfl⟩ | ⟨hf, hloop⟩⟩ := measure_next e
  · obtain ⟨hs, -⟩ | ⟨-, hkept⟩ := rngBegin_state hb
    · obtain ⟨-, hkept⟩ | ⟨hbusy, -⟩ := rngBegin_fault hb
      · rw [hkept, hnone] at hf; cases hf
      · exact absurd hs hbusy
    · exact hkept
  · obtain ⟨hs, -⟩ | ⟨hs, -⟩ := rngBegin_state hb
    · obtain ⟨u, hend⟩ := measureLoop_next hloop
      obtain ⟨-, rfl⟩ := rngEnd_next hend
      rw [endMeasure_state, hs]
    · obtain ⟨hidle, -⟩ | ⟨-, hraised⟩ := rngBegin_fault hb
      · exact absurd hidle hs
      · rw [hf] at hraised; cases hraised

/-- Settles O41: outside the measurement no move writes the state; its own words make the transitions of the
table, and `rng.measure` makes them all and is back. -/
theorem rangingTransitions : Obligations.RangingTransitions := by
  unfold Obligations.RangingTransitions
  intro i s t hreset e
  by_cases hk : wordKind i = .measuring
  · cases i with
    | rngBegin =>
      obtain ⟨hs, ht⟩ | ⟨-, ht⟩ := rngBegin_state (unlessFaulted_next e).2
      · exact .inr (.inl ⟨rfl, hs, ht⟩)
      · exact .inl ht
    | rngPoll =>
      obtain ⟨start, -, rfl⟩ := rngPoll_next (unlessFaulted_next e).2
      obtain ht | ⟨hs, ht⟩ := pollPass_state start s
      · exact .inl ht
      · exact .inr (.inr (.inl ⟨rfl, hs, ht⟩))
    | rngEnd =>
      obtain ⟨-, rfl⟩ := rngEnd_next (unlessFaulted_next e).2
      exact .inr (.inr (.inr ⟨rfl, endMeasure_state s⟩))
    | rngMeasure n => exact .inl (measure_state (unlessFaulted_next e).1 (unlessFaulted_next e).2)
    | _ => cases hk
  · exact .inl ((exec_moves hreset e).keeps (P := fun u => u.rng.state = s.rng.state)
      (fun _ _ m h => m.rngState.trans h) (fun _ _ m h => (m.rngState hk).trans h) rfl)

end Sys2Proof.Machine
end

section
/-! The fault, `TRACE` and the pins (10_state.md R24, R26, R39; 43_environment.md R186), and the result latch
(R21). -/

namespace Sys2Proof.Machine

/-! ### What the handler body H_SERVO drives -/

/-- The servo handler writes the pins of attached slots, the counter and compare value of T1 and the channel: a
property that these writes keep is kept by it. -/
theorem isrBody_keeps_property {P : State → Prop} {s : State}
    (hpin : ∀ sl ∈ s.srv.slots, sl.attached = true → ∀ l u, P u → P (pinWrite sl.pin l u))
    (hcnt : ∀ v u, P u → P (setT1Cnt v u)) (hcmp : ∀ v u, P u → P (setT1Cmp v u))
    (hch : ∀ c u, P u → P (setChannel c u)) (hs : P s) : P (isrBody s) := by
  have hmem : ∀ {u sl}, channelSlot u = some sl → u.srv.slots = s.srv.slots → sl ∈ s.srv.slots :=
    fun e hslots => hslots ▸ List.mem_of_getElem? e
  have hend : P (isrEndPulse s) := by
    unfold isrEndPulse
    split
    · exact hcnt _ _ hs
    · split
      · next sl hsl =>
        split
        · next ha => exact hpin sl (hmem hsl rfl) ha _ _ hs
        · exact hs
      · exact hs
  have hnext := hch ((isrEndPulse s).srv.channel + 1) _ hend
  have hslots : (setChannel ((isrEndPulse s).srv.channel + 1) (isrEndPulse s)).srv.slots = s.srv.slots := by
    simp [setChannel]
  unfold isrBody isrServe
  dsimp only
  generalize setChannel ((isrEndPulse s).srv.channel + 1) (isrEndPulse s) = u at hnext hslots ⊢
  split
  · split
    · next sl hsl =>
      have hstart := hcmp (u.t1.cnt + sl.ticks) u hnext
      unfold isrStartPulse
      dsimp only
      split
      · next ha => exact hpin sl (hmem hsl hslots) ha _ _ hstart
      · exact hstart
    · exact hnext
  · unfold isrEndFrame
    refine hch _ _ ?_
    split <;> exact hcmp _ _ hnext

/-! ### `TRACE` (R26) -/

theorem TraceInv.congr {s t : State} (h : TraceInv s) (hr : t.trace = s.trace) (ht : s.t ≤ t.t) : TraceInv t where
  ordered := by rw [hr]; exact h.ordered
  past := by rw [hr]; exact fun e he => (h.past e he).trans ht

theorem TraceInv.pinWrite {s : State} (p : Byte) (l : Level) (h : TraceInv s) : TraceInv (pinWrite p l s) := by
  obtain ⟨-, e⟩ | ⟨-, -, e⟩ := pinWrite_cases p l s
  · rw [e]
    exact h
  · rw [e]
    constructor
    case ordered =>
      refine List.pairwise_append.mpr ⟨h.ordered, List.pairwise_singleton _ _, fun e he f hf => ?_⟩
      obtain rfl := List.mem_singleton.mp hf
      exact h.past e he
    case past =>
      intro e he
      obtain he | he := List.mem_append.mp he
      · exact h.past e he
      · obtain rfl := List.mem_singleton.mp he
        exact le_refl s.t

theorem TraceInv.underneath {s t : State} (m : Underneath s t) (h : TraceInv s) : TraceInv t := by
  cases m with
  | body src =>
    cases src with
    | tick => show TraceInv (tickBody s); rw [tickBody_eq]; exact h.congr rfl (le_refl _)
    | servo =>
      exact isrBody_keeps_property (fun _ _ _ l _ hu => hu.pinWrite _ l) (fun _ _ hu => hu.congr rfl (le_refl _))
        (fun _ _ hu => hu.congr rfl (le_refl _)) (fun _ _ hu => hu.congr rfl (le_refl _)) h
    | edge =>
      unfold runBody edgeBody
      dsimp only
      split <;> exact h.congr rfl (le_refl _)
  | clear src => cases src <;> exact h.congr rfl (le_refl _)
  | mask => exact h.congr rfl (le_refl _)
  | time => exact h.congr rfl (Nat.le_succ _)
  | countT0 => unfold Machine.countT0; split <;> exact h.congr rfl (le_refl _)
  | countT1 => exact h.congr rfl (le_refl _)

theorem TraceInv.write {k : WordKind} {s t : State} (m : Write k s t) (h : TraceInv s) : TraceInv t := by
  cases m with
  | register pin => obtain ⟨_, _, e⟩ := registerServo_eq pin s; rw [e]; exact h.congr rfl (le_refl _)
  | @attach i sl lo hi => obtain ⟨_, _, _, e⟩ := attachSlot_writes i sl lo hi s; rw [e]; exact h.congr rfl (le_refl _)
  | @detach i sl => obtain ⟨_, _, e⟩ := detachSlot_writes i sl s; rw [e]; exact h.congr rfl (le_refl _)
  | @driver trig temp echo =>
    obtain ⟨_, _, e⟩ := constructDriver_writes trig temp echo s; rw [e]; exact h.congr rfl (le_refl _)
  | trigger l => exact h.pinWrite _ l
  | @drive p _ l => obtain ⟨_, _, e⟩ := drivePin_writes p l s; rw [e]; exact h.congr rfl (le_refl _)
  | _ => exact h.congr rfl (le_refl _)

theorem TraceInv.afterReset (c : Config) (cmp : Half) (script : List Word) (draws : Nat) :
    TraceInv (State.afterReset c cmp script draws) where
  ordered := List.Pairwise.nil
  past := fun _ h => by cases h

/-! ### The fault (R241, R242) -/

/-- A word leaves no fault, or the one fault with interrupts off. -/
theorem exec_fault_cases {i : Instr} {s t : State} (e : exec i s = .next t) :
    t.fault = none ∨ t.fault = some faultRangingBusy ∧ t.cpuI = false := by
  by_cases hreset : i = .reset
  · subst hreset
    exact .inl (execReset_fault e)
  obtain ⟨op, hop⟩ := exec_eq_unlessFaulted hreset
  have hnone : s.fault = none := (unlessFaulted_next ((hop s).symm.trans e)).1
  have hraise : ∀ u, rngBegin s = .next u → u.fault = none ∨ u.fault = some faultRangingBusy ∧ u.cpuI = false := by
    intro u hu
    obtain ⟨d, -, ⟨-, rfl⟩ | ⟨-, rfl⟩⟩ := rngBegin_next hu
    · exact .inl ((beginMeasure_fault d _).trans ((dispatch_fault s).trans hnone))
    · exact .inr ⟨rfl, rfl⟩
  by_cases hbegin : i = .rngBegin
  · subst hbegin
    exact hraise t (unlessFaulted_next e).2
  by_cases hmeasure : ∃ n, i = .rngMeasure n
  · obtain ⟨n, rfl⟩ := hmeasure
    obtain h | h := measure_fault (unlessFaulted_next e).2
    · exact .inl h
    · exact hraise t h
  · exact .inl ((exec_keeps_fault hreset hbegin (fun n h => hmeasure ⟨n, h⟩) e).trans hnone)

theorem step_faultInv {s t : State} (e : step s = .next t) : FaultInv t := by
  obtain ⟨w, rest, i, u, -, -, hexec, rfl⟩ := step_next e
  have f := dispatch_frame u
  obtain h | ⟨h, hI⟩ := exec_fault_cases hexec
  · exact ⟨.inl (f.fault.trans h), by rw [f.fault, h]; exact fun hf => by cases hf⟩
  · exact ⟨.inr (f.fault.trans h), fun _ => f.cpuI.trans hI⟩

/-- Settles O58: a step leaves no fault or the one fault masked, whatever it started from; every entry of `TRACE`
is appended at the time it carries. -/
theorem stepKeepsFaultAndTraceInv : Obligations.StepKeepsFaultAndTraceInv := by
  unfold Obligations.StepKeepsFaultAndTraceInv
  refine fun s t e => ⟨fun _ => step_faultInv e, fun h => ?_⟩
  exact step_keeps (fun _ _ h => h.congr rfl (le_refl _)) (fun _ _ _ => .afterReset _ _ _ _)
    (fun _ _ => TraceInv.underneath) (fun _ _ _ => TraceInv.write) e h

/-! ### Who writes a pin's level (R39, R186) -/

/-- The level of pin `p` and its entries in `TRACE` are the same in both states. -/
structure SamePin (p : Byte) (s t : State) : Prop where
  level : (getPin t p).level = (getPin s p).level
  trace : t.trace.filter (·.pin == p) = s.trace.filter (·.pin == p)

theorem SamePin.refl (p : Byte) (s : State) : SamePin p s s := ⟨rfl, rfl⟩

theorem SamePin.trans {p : Byte} {s t u : State} (h : SamePin p s t) (k : SamePin p t u) : SamePin p s u :=
  ⟨k.level.trans h.level, k.trace.trans h.trace⟩

theorem SamePin.of_eq {p : Byte} {s t : State} (hp : t.pins = s.pins) (ht : t.trace = s.trace) : SamePin p s t :=
  ⟨congrArg Pin.level (getPin_congr p hp), by rw [ht]⟩

theorem SamePin.pinWrite_other {p q : Byte} (hne : q ≠ p) (l : Level) (s : State) : SamePin p s (pinWrite q l s) := by
  obtain ⟨-, e⟩ | ⟨-, -, e⟩ := pinWrite_cases q l s
  · rw [e]
    exact .refl p s
  · rw [e]
    constructor
    case level => exact congrArg Pin.level (getPin_setPin_other s q p _ hne)
    case trace => simp [List.filter_append, hne]

theorem SamePin.pinWrite_input {p : Byte} {s : State} (hp : (getPin s p).dir = .input) (q : Byte) (l : Level) :
    SamePin p s (pinWrite q l s) := by
  by_cases hq : q = p
  · subst hq
    rw [pinWrite_of_input l hp]
    exact .refl q s
  · exact .pinWrite_other hq l s

/-- The words that wire the machine write directions, never a level. -/
theorem SamePin.wiring {p : Byte} {s t : State} (m : Write .wiring s t) : SamePin p s t := by
  have hdir : ∀ (q : Byte) (d : PinDir) (u : State), SamePin p u (setPinDir q d u) := by
    intro q d u
    refine ⟨?_, rfl⟩
    unfold setPinDir
    by_cases hq : q = p
    · subst hq
      rw [getPin_setPin_same]
    · rw [getPin_setPin_other u q p _ hq]
  cases m with
  | result => exact .of_eq rfl rfl
  | register pin => obtain ⟨_, _, e⟩ := registerServo_eq pin s; rw [e]; exact .of_eq rfl rfl
  | @attach i sl lo hi =>
    have h := hdir sl.pin .output s
    rw [attachSlot_eq]
    exact ⟨h.level, h.trace⟩
  | @driver trig temp echo =>
    have h := (hdir trig .output (s.setRng { s.rng with cfg := some { temp := temp, trig := trig, echo := echo } })).trans
      (hdir echo .input _)
    exact ⟨h.level, h.trace⟩
  | turret => exact .of_eq rfl rfl

theorem SamePin.of_wiring_moves {p : Byte} {s t : State} (h : Moves .wiring s t) : SamePin p s t := by
  induction h with
  | refl => exact .refl p s
  | tail _ m ih =>
    cases m with
    | under hk => exact absurd rfl hk
    | write m => exact ih.trans (.wiring m)

/-- A pin that the servo handler spares: no attached slot's, or an input. -/
def Unserved (p : Byte) (s : State) : Prop :=
  (∀ sl ∈ s.srv.slots, sl.attached = true → sl.pin ≠ p) ∨ (getPin s p).dir = .input

/-- A pin that nothing drives: not the driver's trigger pin either, or an input. -/
def Undriven (p : Byte) (s : State) : Prop :=
  Unserved p s ∧ ((∀ d, s.rng.cfg = some d → d.trig ≠ p) ∨ (getPin s p).dir = .input)

theorem Unserved.of_frame {p : Byte} {s t : State} (h : Unserved p s) (f : BackgroundFrame s t) : Unserved p t := by
  unfold Unserved
  rw [f.slots, f.dir]
  exact h

theorem Undriven.of_frame {p : Byte} {s t : State} (h : Undriven p s) (f : BackgroundFrame s t) : Undriven p t := by
  refine ⟨h.1.of_frame f, ?_⟩
  rw [f.driver, f.dir]
  exact h.2

theorem SamePin.of_isrBody {p : Byte} {s : State} (h : Unserved p s) : SamePin p s (isrBody s) := by
  have key : SamePin p s (isrBody s) ∧ BackgroundFrame s (isrBody s) := by
    refine isrBody_keeps_property (P := fun u => SamePin p s u ∧ BackgroundFrame s u) ?_
      (fun v u hu => ⟨hu.1.trans (.of_eq rfl rfl), hu.2.trans (setT1Cnt_frame v u)⟩)
      (fun v u hu => ⟨hu.1.trans (.of_eq rfl rfl), hu.2.trans (setT1Cmp_frame v u)⟩)
      (fun c u hu => ⟨hu.1.trans (.of_eq rfl rfl), hu.2.trans (setChannel_frame c u)⟩) ⟨.refl p s, .refl s⟩
    intro sl hm ha l u hu
    refine ⟨hu.1.trans ?_, hu.2.trans (pinWrite_frame _ l u)⟩
    obtain hne | hin := h.imp_left fun h => h sl hm ha
    · exact .pinWrite_other hne l u
    · exact .pinWrite_input ((hu.2.dir p).trans hin) _ l
  exact key.1

theorem SamePin.underneath {p : Byte} {s t : State} (m : Underneath s t) (h : Unserved p s) : SamePin p s t := by
  cases m with
  | body src =>
    cases src with
    | tick => show SamePin p s (tickBody s); rw [tickBody_eq]; exact .of_eq rfl rfl
    | servo => exact .of_isrBody h
    | edge =>
      unfold runBody edgeBody
      dsimp only
      split <;> exact .of_eq rfl rfl
  | clear src => cases src <;> exact .of_eq rfl rfl
  | mask => exact .of_eq rfl rfl
  | time => exact .of_eq rfl rfl
  | countT0 =>
    unfold Machine.countT0
    split <;> exact .of_eq rfl rfl
  | countT1 => exact .of_eq rfl rfl

/-- What goes on underneath writes no slot, no driver and no direction. -/
theorem Underneath.wiring {s t : State} (m : Underneath s t) :
    t.srv.slots = s.srv.slots ∧ t.rng.cfg = s.rng.cfg ∧ ∀ p, (getPin t p).dir = (getPin s p).dir := by
  cases m with
  | body src => exact ⟨(runBody_frame src s).slots, (runBody_frame src s).driver, (runBody_frame src s).dir⟩
  | clear src => cases src <;> exact ⟨rfl, rfl, fun _ => rfl⟩
  | mask => exact ⟨rfl, rfl, fun _ => rfl⟩
  | time => exact ⟨rfl, rfl, fun _ => rfl⟩
  | countT0 => exact ⟨(countT0_frame s).slots, (countT0_frame s).driver, (countT0_frame s).dir⟩
  | countT1 => exact ⟨rfl, rfl, fun _ => rfl⟩

theorem Unserved.underneath {p : Byte} {s t : State} (m : Underneath s t) (h : Unserved p s) : Unserved p t := by
  obtain ⟨hslots, -, hdir⟩ := m.wiring
  unfold Unserved
  rw [hslots, hdir]
  exact h

theorem Undriven.underneath {p : Byte} {s t : State} (m : Underneath s t) (h : Undriven p s) : Undriven p t := by
  obtain ⟨-, hdriver, hdir⟩ := m.wiring
  refine ⟨h.1.underneath m, ?_⟩
  rw [hdriver, hdir]
  exact h.2

/-- What goes on underneath for however long leaves an unserved pin's level and entries. -/
theorem Background.samePin {p : Byte} {s t : State} (h : Background s t) (hs : Unserved p s) : SamePin p s t :=
  (h.keeps (P := fun u => SamePin p s u ∧ Unserved p u)
    (fun _ _ m hu => ⟨hu.1.trans (.underneath m hu.2), hu.2.underneath m⟩) ⟨.refl p s, hs⟩).1

/-- Slots written back with their pins, and no more of them attached, drive no more pins. -/
theorem Undriven.set {p : Byte} {s t : State} {i : Nat} {sl x : Slot} (h : Undriven p s)
    (hs : s.srv.slots[i]? = some sl) (hx : x.pin = sl.pin) (ha : x.attached = true → sl.attached = true)
    (ht : t.srv.slots = s.srv.slots.set i x) (hr : t.rng.cfg = s.rng.cfg) (hp : t.pins = s.pins) : Undriven p t := by
  have hdir : (getPin t p).dir = (getPin s p).dir := congrArg Pin.dir (getPin_congr p hp)
  obtain ⟨hslots, htrig⟩ := h
  refine ⟨hslots.imp (fun hslots y hy hya => ?_) hdir.trans, ?_⟩
  · rw [ht] at hy
    obtain hy | rfl := List.mem_or_eq_of_mem_set hy
    · exact hslots y hy hya
    · rw [hx]
      exact hslots sl (List.mem_of_getElem? hs) (ha hya)
  · rw [hr, hdir]
    exact htrig

theorem SamePin.write {p : Byte} {k : WordKind} {s t : State} (hw : k ≠ .wiring) (hk : k ≠ .driving)
    (m : Write k s t) (h : Undriven p s) : SamePin p s t ∧ Undriven p t := by
  cases m with
  | register => exact absurd rfl hw
  | attach => exact absurd rfl hw
  | driver => exact absurd rfl hw
  | turret => exact absurd rfl hw
  | drive => exact absurd rfl hk
  | @detach i sl _ hs =>
    rw [detachSlot_eq]
    exact ⟨.of_eq rfl rfl, h.set (x := { sl with attached := false }) hs rfl (fun e => by cases e) rfl rfl rfl⟩
  | @width i sl _ ticks hs =>
    exact ⟨.of_eq rfl rfl, h.set (x := { sl with ticks := ticks }) hs rfl id rfl rfl rfl⟩
  | ranging r _ hr =>
    refine ⟨.of_eq rfl rfl, ?_⟩
    refine ⟨h.1, ?_⟩
    rw [State.setRng_rng, hr]
    exact h.2
  | @trigger d _ l hd =>
    refine ⟨?_, h.of_frame (pinWrite_frame _ l s)⟩
    obtain htrig | hin := h.2
    · exact .pinWrite_other (htrig d hd) l s
    · exact .pinWrite_input hin _ l
  | _ => exact ⟨.of_eq rfl rfl, h⟩

/-- Settles O60: wiring writes no level, `pin.set` its own pin, and every other move drives attached slots' pins
and the trigger pin only, where they are outputs. -/
theorem pinLevelsHaveTheirWriters : Obligations.PinLevelsHaveTheirWriters := by
  unfold Obligations.PinLevelsHaveTheirWriters
  intro i s t p hreset hset e hp
  have hundriven : Undriven p s := by
    obtain ⟨hslots, htrig⟩ | ⟨hin, -⟩ := hp
    · exact ⟨.inl hslots, .inl htrig⟩
    · exact ⟨.inr hin, .inr hin⟩
  have hm := exec_moves hreset e
  suffices h : SamePin p s t from ⟨h.level, h.trace⟩
  by_cases hw : wordKind i = .wiring
  · exact .of_wiring_moves (hw ▸ hm)
  by_cases hk : wordKind i = .driving
  · cases i with
    | pinSet q level =>
      obtain ⟨l, -, rfl⟩ := execPinSet_next e
      have hne : q ≠ p := fun h => hset level (h ▸ rfl)
      rw [drivePin_eq]
      exact ⟨congrArg Pin.level (getPin_setPin_other s q p _ hne), rfl⟩
    | _ => cases hk
  · exact (hm.keeps (P := fun u => SamePin p s u ∧ Undriven p u)
      (fun u v m h => ⟨h.1.trans (.underneath m h.2.1), h.2.underneath m⟩)
      (fun u v m h => (SamePin.write hw hk m h.2).imp_left h.1.trans) ⟨.refl p s, hundriven⟩).1

/-! ### The result latch (R21) -/

theorem rearm_res (s : State) : (rearm s).res = s.res := by
  unfold rearm
  split <;> rfl

theorem pollPass_res (start : Quad) (s : State) : (pollPass start s).res = s.res := by
  have hdisp : ∀ u, (dispatch u).res = u.res := fun u => (dispatch_frame u).res
  have hrearm : (dispatch (rearm (dispatch s))).res = s.res := by rw [hdisp, rearm_res, hdisp]
  rw [pollPass_eq]
  split
  · exact hdisp s
  · split
    · exact hrearm
    · exact hrearm

theorem rngBegin_res {s t : State} (e : rngBegin s = .next t) : t.res = s.res := by
  have hdisp := (dispatch_frame s).res
  obtain ⟨d, -, ⟨-, rfl⟩ | ⟨-, rfl⟩⟩ := rngBegin_next e
  · obtain ⟨_, -, f⟩ := beginMeasure_frame d (dispatch s)
    exact f.res.trans hdisp
  · exact hdisp

theorem cmdEdgeBody_res (s : State) : (cmdEdgeBody s).res = s.res := by
  unfold cmdEdgeBody storeOutcome
  dsimp only
  split <;> rfl

theorem res_of_next_eq {s u t : State} (e : (.next u : Out) = .next t) (hu : u.res = s.res) : t.res = s.res := by
  obtain rfl : u = t := by simpa using e
  exact hu

theorem execCmdEdge_res {s t : State} (e : execCmdEdge s = .next t) : t.res = s.res := by
  obtain ⟨-, e⟩ := unlessFaulted_next e
  split at e
  · cases e
  · exact res_of_next_eq e (cmdEdgeBody_res (s.setCpuI false))

theorem execMbxPut_res {a c r : Half} {s t : State} (e : execMbxPut a c r s = .next t) : t.res = s.res := by
  obtain ⟨-, e⟩ := unlessFaulted_next e
  split at e
  · cases e
  · exact res_of_next_eq e rfl

theorem execPinSet_res {p : Byte} {level : Half} {s t : State} (e : execPinSet p level s = .next t) :
    t.res = s.res := by
  obtain ⟨l, -, rfl⟩ := execPinSet_next e
  rw [drivePin_eq]
  rfl

theorem execBody_res {src : Source} {s t : State}
    (e : unlessFaulted s (fun u => .next (directBody (runBody src) u)) = .next t) : t.res = s.res :=
  res_of_next_eq (unlessFaulted_next e).2 (by rw [directBody_runBody]; exact (runBody_frame src s).res)

/-- Settles O56: what goes on underneath keeps `RES`, and so do the writes of each of these words. -/
theorem wordsReturningNothingKeepResult : Obligations.WordsReturningNothingKeepResult := by
  unfold Obligations.WordsReturningNothingKeepResult
  intro i s t hi e
  obtain hi | ⟨n, rfl⟩ | ⟨p, l, rfl⟩ | ⟨a, c, r, rfl⟩ := hi
  · simp only [List.mem_cons, List.not_mem_nil, or_false] at hi
    obtain rfl | rfl | rfl | rfl | rfl | rfl | rfl | rfl := hi
    · exact execBody_res (src := .tick) e
    · exact execBody_res (src := .servo) e
    · exact rngBegin_res (unlessFaulted_next e).2
    · obtain ⟨start, -, rfl⟩ := rngPoll_next (unlessFaulted_next e).2
      exact pollPass_res start s
    · exact execBody_res (src := .edge) e
    · exact res_of_next_eq (unlessFaulted_next (op := fun u => .next (u.setCpuI false)) e).2 rfl
    · exact res_of_next_eq (unlessFaulted_next (op := fun u => .next (u.setCpuI true)) e).2 rfl
    · exact execCmdEdge_res e
  · exact res_of_next_eq (unlessFaulted_next (op := fun u => .next (advance n.toNat u)) e).2 (advance_frame _ s).res
  · exact execPinSet_res e
  · exact execMbxPut_res e

/-! ### The laws of the ranging result (42_ranging.md R162) -/

theorem rangingResult_pos {tt et : Option Quad} {d : Quad} (h : rangingResult tt et = .u32 d) : 1 ≤ d.toNat := by
  unfold rangingResult at h
  split at h
  · cases h
  · cases h
  · split at h
    · cases h
    · next hlt =>
      obtain rfl := Res.u32.inj h
      bv_omega

/-- Settles O36: the result is that of the two timestamps, read before anything could change them. -/
theorem rngEndLaws : Obligations.RngEndLaws := by
  unfold Obligations.RngEndLaws
  intro s t e
  obtain ⟨-, rfl⟩ := rngEnd_next (unlessFaulted_next e).2
  have f := endMeasure_frame s
  have hres : (endMeasure s).res = rangingResult s.rng.trigTime s.rng.echoTime := f.res
  rw [hres]
  refine ⟨fun d => rangingResult_pos, ⟨f.rngState, f.mode, f.meas⟩, fun htrig => ?noTrigger,
    fun tt et htrig hecho hle => ?invalid⟩
  case noTrigger => rw [htrig]; rfl
  case invalid =>
    rw [htrig, hecho]
    exact if_pos hle

end Sys2Proof.Machine
end

section
/-! The step and its interrupts (60_exceptions.md R231 to R239), the state after reset, and the words of the
environment (43_environment.md). -/

namespace Sys2Proof.Machine

/-! ### The step (R5, R236) -/

theorem step_of_script {s : State} {w : Word} {rest : List Word} {i : Instr} (hs : s.script = w :: rest)
    (hd : decode w = .ok i) :
    step s = andThen (exec i (s.setScript rest)) fun s1 => .next (dispatch s1) := by
  rw [← applyWord_of_ok hd]
  simp only [step, fetch, hs]

/-- Settles O5: the step is the meaning with `DISPATCH()` after it, and a stop passes through. -/
theorem stepRunsDecodedInstruction : Obligations.StepRunsDecodedInstruction := by
  unfold Obligations.StepRunsDecodedInstruction
  intro s w rest i hs hd
  have hstep : step s = andThen (exec i { s with script := rest }) fun s1 => .next (dispatch s1) :=
    step_of_script hs hd
  refine ⟨fun t e => ?next, fun f e => ?fault, fun r e => ?refused⟩
  case next => rw [hstep, e, andThen_next']
  case fault => rw [hstep, e, andThen_fault]
  case refused => rw [hstep, e, andThen_refused]

/-- Settles O6: a step ends in `DISPATCH()`, which leaves the machine quiet. -/
theorem stepLeavesNothingToTake : Obligations.StepLeavesNothingToTake := by
  unfold Obligations.StepLeavesNothingToTake
  intro s t e
  obtain ⟨_, _, _, u, -, -, -, rfl⟩ := step_next e
  exact dispatch_quiet u

/-! ### `DISPATCH()` (R235, R236) -/

/-- More turns than pending sources change nothing. -/
theorem dispatchTurns_succ : ∀ (k : Nat) (s : State), pendingCount s ≤ k → dispatchTurns (k + 1) s = dispatchTurns k s
  | 0, s, hk => by
    have hq : Quiet s := dispatchTurns_quiet 0 s hk
    unfold dispatchTurns
    split
    · next hc =>
      simp only [Bool.and_eq_true, Option.isNone_iff_eq_none] at hc
      rw [nextSource_none.mpr (hq hc.1 hc.2)]
    · rfl
  | k + 1, s, hk => by
    rw [dispatchTurns, dispatchTurns]
    split
    · cases hn : nextSource s with
      | none => rfl
      | some src =>
        have hcount := pendingCount_takeInterrupt (nextSource_requesting hn)
        exact dispatchTurns_succ k _ (by omega)
    · rfl

theorem pendingCount_le (s : State) : pendingCount s ≤ 3 := by
  unfold pendingCount
  split <;> split <;> split <;> omega

/-- `DISPATCH()` takes the first source and goes on. -/
theorem dispatch_of_nextSource {s : State} {src : Source} (hI : s.cpuI = true) (hf : s.fault = none)
    (hn : nextSource s = some src) : dispatch s = dispatch (takeInterrupt src s) := by
  have hcount := pendingCount_takeInterrupt (nextSource_requesting hn)
  have hle := pendingCount_le s
  have htake : dispatch s = dispatchTurns 2 (takeInterrupt src s) := by
    simp [dispatch, dispatchTurns, hI, hf, hn]
  rw [htake, dispatch, dispatchTurns_succ 2 _ (by omega)]

/-- R235: the source that stands before every other requesting one is the first found. -/
theorem nextSource_of_first {s : State} {src : Source} (hr : requesting s src = true)
    (hfirst : ∀ other, requesting s other = true → other ≠ src → [src, other].Sublist s.cfg.prio.order) :
    nextSource s = some src := by
  have hbefore : ∀ other, other ≠ src → ¬ [src, other].Sublist s.cfg.prio.order → requesting s other = false :=
    fun other hne hnot => by
      cases hreq : requesting s other
      · rfl
      · exact absurd (hfirst other hreq hne) hnot
  unfold nextSource
  revert hbefore
  cases s.cfg.prio <;> cases src <;> intro hbefore <;>
    simp +decide [Prio.order, hr, hbefore]

/-- Settles O7: the source is the one that `DISPATCH()` finds first; two turns are enough for the others. -/
theorem priorityDecidesWhichIsTaken : Obligations.PriorityDecidesWhichIsTaken := by
  unfold Obligations.PriorityDecidesWhichIsTaken
  intro s src hI hf hr hfirst
  exact dispatch_of_nextSource hI hf (nextSource_of_first hr hfirst)

/-! ### One interrupt (R231, R237, R239) -/

theorem enter_fault (src : Source) (s : State) : (enter src s).fault = s.fault := by cases src <;> rfl

theorem exec_of_bodyWord {i : Instr} {src : Source} {s : State} (hf : s.fault = none)
    (hi : ∀ u, exec i u = unlessFaulted u fun v => .next (directBody (runBody src) v)) :
    exec i s = .next (runBody src s) := by
  rw [hi, unlessFaulted_of_none hf, directBody_runBody]

/-- Settles O8: entry and return are their updates; the word of a source runs its body, and that body between
entry and return is the interrupt. -/
theorem entryAndReturnTouchFlagsOnly : Obligations.EntryAndReturnTouchFlagsOnly := by
  unfold Obligations.EntryAndReturnTouchFlagsOnly
  refine ⟨fun s => ⟨rfl, rfl, rfl, rfl⟩, fun s hf => ⟨?tick, ?servo, ?edge⟩⟩
  case tick => exact ⟨_, exec_of_bodyWord (src := .tick) ((enter_fault _ s).trans hf) fun _ => rfl, rfl⟩
  case servo => exact ⟨_, exec_of_bodyWord (src := .servo) ((enter_fault _ s).trans hf) fun _ => rfl, rfl⟩
  case edge => exact ⟨_, exec_of_bodyWord (src := .edge) ((enter_fault _ s).trans hf) fun _ => rfl, rfl⟩

/-! ### After reset (10_state.md R42) -/

theorem build_eq_some {c : Config} {cmp : Half} {s : State} (h : State.build c cmp = some s) :
    s = State.afterReset c cmp [] 0 := by
  unfold State.build at h
  split at h
  · exact (Option.some.inj h).symm
  · cases h

theorem build_eq_none_iff {c : Config} {cmp : Half} : State.build c cmp = none ↔ c.wellFormed = false := by
  unfold State.build
  split
  · next h => simp [h]
  · next h => simpa using h

/-- Settles O59: the state after reset meets each invariant, and CFG-A is well-formed. -/
theorem resetMeetsInvariants : Obligations.ResetMeetsInvariants := by
  unfold Obligations.ResetMeetsInvariants
  refine ⟨fun c cmp s h => ?invariants, fun _ _ => build_eq_none_iff, build_of_wellFormed 0 (by decide)⟩
  case invariants =>
    obtain rfl := build_eq_some h
    exact ⟨quiet_masked rfl, .afterReset _ _ _ _, .afterReset _ _ _ _, .afterReset _ _ _ _, .afterReset _ _ _ _,
      ⟨.inl rfl, fun hf => by cases hf⟩, .afterReset _ _ _ _⟩

/-- Settles O46: `reset` is the state after reset, with a drawn `T1.CMP`. -/
theorem resetWordRestoresResetState : Obligations.ResetWordRestoresResetState := by
  unfold Obligations.ResetWordRestoresResetState
  exact fun s => ⟨Config.t1CmpDraw s.draws, rfl⟩

/-! ### Time (R180, R181) -/

theorem exec_adv {s : State} (n : Quad) (hf : s.fault = none) : exec (.adv n) s = .next (advance n.toNat s) := by
  have h : exec (.adv n) s = unlessFaulted s fun u => .next (advance n.toNat u) := rfl
  rw [h, unlessFaulted_of_none hf]

/-- Settles O42: a quiet state stays quiet over time, so the `DISPATCH()` between the two stretches takes
nothing. -/
theorem advSplits : Obligations.AdvSplits := by
  unfold Obligations.AdvSplits
  intro s a b hq hf hlt
  have hsum : (a + b).toNat = a.toNat + b.toNat := by bv_omega
  refine ⟨_, exec_adv a hf, ?_⟩
  rw [dispatch_of_quiet (advance_quiet _ hq), exec_adv b ((advance_fault _ _).trans hf), exec_adv (a + b) hf, hsum,
    advance_add]

/-- The counting of the timers in one cycle, with no interrupt taken (R181 to R183). -/
def countCycle (s : State) : State := clockT1 (clockT0 (s.setT (s.t + 1)))

/-- `T0_COUNT()` (R182) on the timer alone. -/
def Timer0.count (x : Timer0) : Timer0 :=
  if x.cnt = x.cmp then { x with cnt := 0, pend := true } else { x with cnt := x.cnt + 1 }

/-- `T1_COUNT()` (R183) on the timer alone. -/
def Timer1.count (x : Timer1) : Timer1 :=
  { x with cnt := x.cnt + 1, pend := if x.cnt + 1 = x.cmp then true else x.pend }

/-- T0 after the cycle number `t` (R181). -/
def Timer0.clock (t : Nat) (x : Timer0) : Timer0 :=
  if x.run && t % x.prescale.cycles == 0 then x.count else x

/-- T1 after the cycle number `t` (R181). -/
def Timer1.clock (t : Nat) (x : Timer1) : Timer1 :=
  if x.ie && t % x.prescale.cycles == 0 then x.count else x

theorem countT0_eq (s : State) : countT0 s = s.setT0 s.t0.count := by
  unfold countT0 Timer0.count
  split <;> rfl

theorem countT1_eq (s : State) : countT1 s = s.setT1 s.t1.count := rfl

theorem clockT0_eq (s : State) : clockT0 s = s.setT0 (s.t0.clock s.t) := by
  unfold clockT0 Timer0.clock
  split
  · exact countT0_eq s
  · rfl

theorem clockT1_eq (s : State) : clockT1 s = s.setT1 (s.t1.clock s.t) := by
  unfold clockT1 Timer1.clock
  split <;> rfl

/-- The counting of a cycle writes the time and each timer by itself. -/
theorem countCycle_eq (s : State) : countCycle s =
    ((s.setT (s.t + 1)).setT0 (s.t0.clock (s.t + 1))).setT1 (s.t1.clock (s.t + 1)) := by
  rw [countCycle, clockT1_eq, clockT0_eq]
  rfl

theorem countCycle_setCpuI (b : Bool) (s : State) : countCycle (s.setCpuI b) = (countCycle s).setCpuI b := by
  rw [countCycle_eq, countCycle_eq]
  rfl

theorem countCycle_frame (s : State) : BackgroundFrame s (countCycle s) :=
  (setT_frame s _).trans ((clockT0_frame _).trans (clockT1_frame _))

theorem cycle_eq (s : State) : cycle s = dispatch (countCycle s) := rfl

theorem cycle_of_masked {s : State} (h : s.cpuI = false) : cycle s = countCycle s := by
  rw [cycle_eq, dispatch_masked ((countCycle_frame s).cpuI.trans h)]

/-- Settles O43: time is its frame and its count; a masked cycle is the counting alone, which neither reads nor
writes `CPU.I`. -/
theorem advLetsTimePass : Obligations.AdvLetsTimePass := by
  unfold Obligations.AdvLetsTimePass
  refine ⟨fun s n hf => ⟨exec_adv n hf, advance_t _ _, advance_frame _ _, exec_adv 0 hf⟩, fun n s => ⟨rfl, ?_⟩⟩
  have hmasked : advance 1 (s.setCpuI false) = (countCycle s).setCpuI false := by
    rw [← countCycle_setCpuI]
    exact cycle_of_masked rfl
  have hrestore : (advance 1 (s.setCpuI false)).setCpuI s.cpuI = countCycle s := by
    rw [hmasked, ← (countCycle_frame s).cpuI]
    rfl
  exact (congrArg dispatch hrestore).symm

/-! ### Pins and masking (R184, R185, R187, R188) -/

theorem exec_pinSet (p : Byte) (c : Half) (s : State) : exec (.pinSet p c) s = execPinSet p c s := rfl

theorem execPinSet_of_output {s : State} {p : Byte} {c : Half} {l : Level} (hf : s.fault = none)
    (hl : levelOperand c = some l) (hp : (getPin s p).dir = .output) :
    execPinSet p c s = .refused .pinIsOutput := by
  rw [execPinSet, unlessFaulted_of_none hf, hl]
  exact if_pos hp

theorem execPinSet_of_input {s : State} {p : Byte} {c : Half} {l : Level} (hf : s.fault = none)
    (hl : levelOperand c = some l) (hp : (getPin s p).dir = .input) :
    execPinSet p c s = .next (drivePin p l s) := by
  have hne : (getPin s p).dir ≠ .output := by rw [hp]; decide
  rw [execPinSet, unlessFaulted_of_none hf, hl]
  exact if_neg hne

theorem setPinLevel_eq (p : Byte) (l : Level) (s : State) : setPinLevel p l s =
    s.setPins (s.pins.set p.toNat { dir := (getPin s p).dir, level := l } p.isLt) := rfl

theorem isEchoPin_iff (p : Byte) (s : State) : isEchoPin p s = true ↔ ∃ d, s.rng.cfg = some d ∧ d.echo = p := by
  unfold isEchoPin
  cases s.rng.cfg <;> simp

theorem edgeMatches_iff (m : EdgeMode) (old new : Level) : edgeMatches m old new = true ↔
    (m = .rising ∧ old = .low ∧ new = .high) ∨ (m = .falling ∧ old = .high ∧ new = .low) := by
  cases m <;> cases old <;> cases new <;> decide

/-- Settles O44: the drive writes the level and, on the echo pin, the armed edge's flag. -/
theorem pinSetDrivesInput : Obligations.PinSetDrivesInput := by
  unfold Obligations.PinSetDrivesInput
  intro s p c l hf hc
  have hl : levelOperand c = some l := by
    obtain ⟨rfl, rfl⟩ | ⟨rfl, rfl⟩ := hc <;> rfl
  refine ⟨fun hp => ?output, fun hp => ?input⟩
  case output => rw [exec_pinSet, execPinSet_of_output hf hl hp]
  case input =>
    refine ⟨s.edge.pend || (isEchoPin p s && edgeMatches s.edge.mode (getPin s p).level l), ?_, ?_⟩
    · rw [exec_pinSet, execPinSet_of_input hf hl hp, drivePin_eq, setPinLevel_eq, hp]
      rfl
    · rw [Bool.or_eq_true, Bool.and_eq_true, isEchoPin_iff, edgeMatches_iff]

/-- Settles O45: the two words are the two updates of `CPU.I`. -/
theorem irqWordsSetMask : Obligations.IrqWordsSetMask := by
  unfold Obligations.IrqWordsSetMask
  refine fun s hf => ⟨?off, ?on⟩
  case off => exact unlessFaulted_of_none hf fun u => .next (u.setCpuI false)
  case on => exact unlessFaulted_of_none hf fun u => .next (u.setCpuI true)

/-! ### The decoder (44_host.md R203) -/

theorem exec_cmdEdge (s : State) : exec .cmdEdge s = execCmdEdge s := rfl

/-- What an outcome leaves in the mailbox. -/
theorem storeOutcome_eq (o : DecoderOutcome) (s : State) : storeOutcome o s = s.setMbx (match o with
    | .command a c r => some { address := a, command := c, rep := r }
    | .nothing => s.mbx
    | .malformed => s.mbx) := by
  cases o <;> rfl

/-- `CPU.I`, saved and restored around the body of H_CMD, plays no part in it. -/
theorem directBody_cmdEdgeBody (s : State) : directBody cmdEdgeBody s = cmdEdgeBody s := by
  unfold directBody cmdEdgeBody
  dsimp only
  rw [storeOutcome_eq, storeOutcome_eq]
  rfl

/-- Settles O49: with a decoder the body of H_CMD runs, and its outcome decides the mailbox. -/
theorem cmdEdgeFeedsDecoder : Obligations.CmdEdgeFeedsDecoder := by
  unfold Obligations.CmdEdgeFeedsDecoder
  refine fun s hf => ⟨fun hd => ?none, fun hd => ?some⟩
  case none => rw [exec_cmdEdge, execCmdEdge, unlessFaulted_of_none hf, hd]
  case some =>
    obtain ⟨init, hinit⟩ := Option.isSome_iff_exists.mp hd
    rw [exec_cmdEdge, execCmdEdge, unlessFaulted_of_none hf, hinit, directBody_cmdEdgeBody, cmdEdgeBody,
      storeOutcome_eq]
    rfl

end Sys2Proof.Machine
end

section
/-! The timers over time (43_environment.md R181 to R183): how often a timer counts in a stretch of cycles, what
so many counts leave in it, and the stretches in which interrupts are off. -/

namespace Sys2Proof.Machine

/-! ### Many counts of one timer -/

theorem Timer1.count_iterate (k : Nat) (x : Timer1) : Timer1.count^[k] x =
    { x with cnt := x.cnt + BitVec.ofNat 16 k, pend := (Timer1.count^[k] x).pend } := by
  induction k with
  | zero => simp
  | succ k ih =>
    rw [Function.iterate_succ_apply', ih, Timer1.count]
    simp only [Timer1.mk.injEq, true_and, and_true]
    bv_omega

/-- R183: the flag is set when one of the counts makes the counter equal to the compare value. -/
theorem Timer1.count_iterate_pend (k : Nat) (x : Timer1) : (Timer1.count^[k] x).pend = true ↔
    x.pend = true ∨ ∃ j, 1 ≤ j ∧ j ≤ k ∧ x.cnt + BitVec.ofNat 16 j = x.cmp := by
  induction k with
  | zero =>
    simp only [Function.iterate_zero, id_eq]
    exact ⟨.inl, fun h => h.resolve_right fun ⟨j, h1, h2, _⟩ => by omega⟩
  | succ k ih =>
    have hcnt : (Timer1.count^[k] x).cnt + 1 = x.cnt + BitVec.ofNat 16 (k + 1) := by
      rw [Timer1.count_iterate]
      bv_omega
    have hcmp : (Timer1.count^[k] x).cmp = x.cmp := by rw [Timer1.count_iterate]
    have hstep : (Timer1.count^[k + 1] x).pend = true ↔
        x.cnt + BitVec.ofNat 16 (k + 1) = x.cmp ∨ (Timer1.count^[k] x).pend = true := by
      rw [Function.iterate_succ_apply', Timer1.count]
      simp only [hcnt, hcmp]
      split <;> simp_all
    rw [hstep, ih]
    constructor
    · rintro (hm | hp | ⟨j, h1, h2, hj⟩)
      · exact .inr ⟨k + 1, by omega, le_refl _, hm⟩
      · exact .inl hp
      · exact .inr ⟨j, h1, by omega, hj⟩
    · rintro (hp | ⟨j, h1, h2, hj⟩)
      · exact .inr (.inl hp)
      · obtain rfl | hlt : j = k + 1 ∨ j ≤ k := by omega
        · exact .inl hj
        · exact .inr (.inr ⟨j, h1, hlt, hj⟩)

theorem Timer0.count_of_match {x : Timer0} (h : x.cnt = x.cmp) : x.count = { x with cnt := 0, pend := true } :=
  if_pos h

theorem Timer0.count_of_no_match {x : Timer0} (h : x.cnt ≠ x.cmp) : x.count = { x with cnt := x.cnt + 1 } :=
  if_neg h

theorem Timer0.count_iterate (k : Nat) (x : Timer0) : Timer0.count^[k] x =
    { x with cnt := (Timer0.count^[k] x).cnt, pend := (Timer0.count^[k] x).pend } := by
  induction k with
  | zero => rfl
  | succ k ih =>
    rw [Function.iterate_succ_apply', Timer0.count]
    split
    · rw [ih]
    · rw [ih]

/-- R182: a counter not above its compare value counts through 0 to the compare value and round. -/
theorem Timer0.count_iterate_of_le (k : Nat) {x : Timer0} (hle : x.cnt.toNat ≤ x.cmp.toNat) :
    (Timer0.count^[k] x).cnt.toNat = (x.cnt.toNat + k) % (x.cmp.toNat + 1) ∧
    ((Timer0.count^[k] x).pend = true ↔ x.pend = true ∨ x.cmp.toNat < x.cnt.toNat + k) := by
  induction k generalizing x with
  | zero =>
    refine ⟨(Nat.mod_eq_of_lt (Nat.lt_succ_of_le hle)).symm, ?_⟩
    simp only [Function.iterate_zero, id_eq]
    exact ⟨.inl, fun h => h.resolve_right (by omega)⟩
  | succ k ih =>
    rw [Function.iterate_succ_apply]
    by_cases hm : x.cnt = x.cmp
    · rw [Timer0.count_of_match hm]
      obtain ⟨hcnt, hpend⟩ := ih (x := { x with cnt := 0, pend := true }) (Nat.zero_le _)
      refine ⟨hcnt.trans ?_, ?_⟩
      · have hsum : x.cnt.toNat + (k + 1) = (0 : Byte).toNat + k + (x.cmp.toNat + 1) := by
          rw [hm]
          simp
          omega
        rw [hsum, Nat.add_mod_right]
      · rw [hpend]
        simp only [true_or, true_iff]
        exact .inr (by rw [hm]; omega)
    · have hne : x.cnt.toNat ≠ x.cmp.toNat := fun e => hm (BitVec.eq_of_toNat_eq e)
      have hsucc : (x.cnt + 1).toNat = x.cnt.toNat + 1 := by bv_omega
      rw [Timer0.count_of_no_match hm]
      obtain ⟨hcnt, hpend⟩ := ih (x := { x with cnt := x.cnt + 1 }) (by simp only [hsucc]; omega)
      simp only [hsucc] at hcnt hpend
      refine ⟨by rw [hcnt, Nat.add_right_comm, Nat.add_assoc], ?_⟩
      rw [hpend, Nat.add_right_comm, Nat.add_assoc]

/-- R182: one that stands above its compare value first wraps to 0 at 256, which sets nothing. -/
theorem Timer0.count_iterate_of_gt (k : Nat) {x : Timer0} (hgt : x.cmp.toNat < x.cnt.toNat) :
    (x.cnt.toNat + k < 256 → (Timer0.count^[k] x).cnt.toNat = x.cnt.toNat + k ∧ (Timer0.count^[k] x).pend = x.pend) ∧
    (256 ≤ x.cnt.toNat + k → (Timer0.count^[k] x).cnt.toNat = (x.cnt.toNat + k - 256) % (x.cmp.toNat + 1) ∧
      ((Timer0.count^[k] x).pend = true ↔ x.pend = true ∨ x.cmp.toNat < x.cnt.toNat + k - 256)) := by
  induction k generalizing x with
  | zero =>
    have hlt := x.cnt.isLt
    exact ⟨fun _ => ⟨rfl, rfl⟩, fun h => by omega⟩
  | succ k ih =>
    have hlt := x.cnt.isLt
    have hne : x.cnt ≠ x.cmp := fun e => by rw [e] at hgt; omega
    rw [Function.iterate_succ_apply, Timer0.count_of_no_match hne]
    by_cases hwrap : x.cnt.toNat = 255
    · have hzero : x.cnt + 1 = 0 := by bv_omega
      rw [hzero]
      obtain ⟨hcnt, hpend⟩ := Timer0.count_iterate_of_le k (x := { x with cnt := 0 }) (Nat.zero_le _)
      have hsum : x.cnt.toNat + (k + 1) - 256 = (0 : Byte).toNat + k := by
        have h0 : (0 : Byte).toNat = 0 := rfl
        omega
      refine ⟨fun h => by omega, fun _ => ?_⟩
      rw [hsum]
      exact ⟨hcnt, hpend⟩
    · have hsucc : (x.cnt + 1).toNat = x.cnt.toNat + 1 := by bv_omega
      have h := ih (x := { x with cnt := x.cnt + 1 }) (by simp only [hsucc]; omega)
      simp only [hsucc] at h
      rwa [Nat.add_right_comm, Nat.add_assoc] at h

/-! ### How often a timer counts (R181) -/

/-- The multiples of the prescale in `(t, t+n]`, for a timer that runs; none for a stopped one. -/
def countsIn (runs : Bool) (p : Prescale) (t n : Nat) : Nat :=
  if runs then (t + n) / p.cycles - t / p.cycles else 0

theorem prescale_cycles_pos (p : Prescale) : 0 < p.cycles := by cases p <;> decide

/-- Whether a running timer counts in the cycle number `t`. -/
def ticksAt (runs : Bool) (p : Prescale) (t : Nat) : Bool := runs && t % p.cycles == 0

theorem countsIn_zero (runs : Bool) (p : Prescale) (t : Nat) : countsIn runs p t 0 = 0 := by
  simp [countsIn]

theorem countsIn_of_stopped (p : Prescale) (t n : Nat) : countsIn false p t n = 0 := rfl

/-- The count of the first cycle, and of those after it. -/
theorem countsIn_succ (runs : Bool) (p : Prescale) (t n : Nat) : countsIn runs p t (n + 1) =
    (if ticksAt runs p (t + 1) then 1 else 0) + countsIn runs p (t + 1) n := by
  cases runs with
  | false => rfl
  | true =>
    have hstep : (t + 1) / p.cycles = t / p.cycles + if p.cycles ∣ t + 1 then 1 else 0 := Nat.succ_div
    have hmono : (t + 1) / p.cycles ≤ (t + 1 + n) / p.cycles := Nat.div_le_div_right (by omega)
    have hassoc : t + (n + 1) = t + 1 + n := by omega
    simp only [countsIn, ticksAt, if_true, Bool.true_and, beq_iff_eq, hassoc, ← Nat.dvd_iff_mod_eq_zero]
    split at hstep
    · next hd => rw [if_pos hd]; omega
    · next hd => rw [if_neg hd]; omega

theorem Timer0.clock_eq (t : Nat) (x : Timer0) : x.clock t = if ticksAt x.run x.prescale t then x.count else x := rfl

theorem Timer1.clock_eq (t : Nat) (x : Timer1) : x.clock t = if ticksAt x.ie x.prescale t then x.count else x := rfl

/-- The counts left after the first cycle are those of the timer after it. -/
theorem Timer0.count_iterate_clock (t n : Nat) (x : Timer0) :
    Timer0.count^[countsIn (x.clock t).run (x.clock t).prescale t n] (x.clock t) =
      Timer0.count^[(if ticksAt x.run x.prescale t then 1 else 0) + countsIn x.run x.prescale t n] x := by
  rw [Timer0.clock_eq]
  split
  · have hx := Timer0.count_iterate 1 x
    rw [Function.iterate_one] at hx
    have hrun : x.count.run = x.run := by rw [hx]
    have hpre : x.count.prescale = x.prescale := by rw [hx]
    rw [hrun, hpre, Nat.add_comm, Function.iterate_succ_apply]
  · rw [Nat.zero_add]

theorem Timer1.count_iterate_clock (t n : Nat) (x : Timer1) :
    Timer1.count^[countsIn (x.clock t).ie (x.clock t).prescale t n] (x.clock t) =
      Timer1.count^[(if ticksAt x.ie x.prescale t then 1 else 0) + countsIn x.ie x.prescale t n] x := by
  rw [Timer1.clock_eq]
  split
  · rw [Nat.add_comm, Function.iterate_succ_apply]
    rfl
  · rw [Nat.zero_add]

/-- With interrupts off time passes and each timer counts as often as its prescale says; nothing else changes. -/
theorem advance_of_masked (n : Nat) {s : State} (hI : s.cpuI = false) : advance n s =
    ((s.setT (s.t + n)).setT0 (Timer0.count^[countsIn s.t0.run s.t0.prescale s.t n] s.t0)).setT1
      (Timer1.count^[countsIn s.t1.ie s.t1.prescale s.t n] s.t1) := by
  induction n generalizing s with
  | zero =>
    rw [countsIn_zero, countsIn_zero]
    rfl
  | succ n ih =>
    have hI' : (countCycle s).cpuI = false := (countCycle_frame s).cpuI.trans hI
    rw [advance, cycle_of_masked hI, ih hI', countCycle_eq]
    simp only [State.setT1_t0, State.setT0_t0, State.setT1_t1, State.setT1_t, State.setT0_t, State.setT_t]
    rw [Timer0.count_iterate_clock, Timer1.count_iterate_clock, ← countsIn_succ, ← countsIn_succ, Nat.add_right_comm,
      Nat.add_assoc]
    rfl

/-- Settles O9: the timers after their counts, in closed form. -/
theorem maskedTimeOnlyCounts : Obligations.MaskedTimeOnlyCounts := by
  unfold Obligations.MaskedTimeOnlyCounts
  intro n s hI counts k0 k1
  refine ⟨(Timer0.count^[k0] s.t0).cnt, (Timer0.count^[k0] s.t0).pend, (Timer1.count^[k1] s.t1).pend, ?_,
    Timer1.count_iterate_pend k1 s.t1, Timer0.count_iterate_of_le k0, Timer0.count_iterate_of_gt k0⟩
  have h0 : Timer0.count^[countsIn s.t0.run s.t0.prescale s.t n] s.t0 = _ := Timer0.count_iterate k0 s.t0
  have h1 : Timer1.count^[countsIn s.t1.ie s.t1.prescale s.t n] s.t1 = _ := Timer1.count_iterate k1 s.t1
  rw [advance_of_masked n hI, h0, h1]
  rfl

theorem countT1_iterate (k : Nat) (s : State) : countT1^[k] s = s.setT1 (Timer1.count^[k] s.t1) := by
  induction k with
  | zero => rfl
  | succ k ih => rw [Function.iterate_succ_apply', ih, countT1_eq, Function.iterate_succ_apply']; rfl

/-- Settles O28: `w` counts ahead is met by the `w`-th count and, as `w` is at most a full wrap, by none before. -/
theorem compareMatchesAfterItsCounts : Obligations.CompareMatchesAfterItsCounts := by
  unfold Obligations.CompareMatchesAfterItsCounts
  intro s w h1 hw hp hcmp
  have hpend : ∀ k, (countT1^[k] s).t1.pend = true ↔
      ∃ j, 1 ≤ j ∧ j ≤ k ∧ s.t1.cnt + BitVec.ofNat 16 j = s.t1.cmp := by
    intro k
    rw [countT1_iterate, State.setT1_t1, Timer1.count_iterate_pend, hp]
    simp
  refine ⟨fun k hk => ?notBefore, (hpend w).mpr ⟨w, h1, le_refl _, hcmp.symm⟩, ?cnt⟩
  case notBefore =>
    by_contra h
    obtain ⟨j, hj1, hjk, hj⟩ := (hpend k).mp (by simpa using h)
    rw [hcmp] at hj
    bv_omega
  case cnt =>
    rw [countT1_iterate, State.setT1_t1, Timer1.count_iterate, hcmp]

/-! ### The Clock's words (40_clock.md R100, R101) -/

theorem exec_clkStart (s : State) : exec .clkStart s = execClkStart s := rfl

theorem execClkStart_of_stopped {s : State} (hf : s.fault = none) (hs : s.clk.started = false) :
    execClkStart s = .next (startClock s) := by
  simp [execClkStart, hf, hs]

theorem execClkStart_of_started {s : State} (hf : s.fault = none) (hs : s.clk.started = true) :
    execClkStart s = .refused .alreadyStarted := by
  simp [execClkStart, hf, hs]

/-- Settles O10: `clk.start` is its update, once; R9 (a) makes the compare value fit. -/
theorem clkStartConfiguresT0 : Obligations.ClkStartConfiguresT0 := by
  unfold Obligations.ClkStartConfiguresT0
  refine fun s hc hf => ⟨fun hs => ⟨_, toNat_ofInt_clkCmp hc, ?start⟩, fun hs => ?second⟩
  case start =>
    rw [exec_clkStart, execClkStart_of_stopped hf hs]
    rfl
  case second => rw [exec_clkStart, execClkStart_of_started hf hs]

theorem exec_clkTick {s : State} (hf : s.fault = none) : exec .clkTick s = .next (tickBody s) :=
  exec_of_bodyWord (src := .tick) hf fun _ => rfl

theorem tickBody_of_fold {s : State} (h : s.cfg.foldThreshold < (s.clk.part + 1).toNat) : tickBody s =
    s.setClk { s.clk with counter := s.clk.counter + (s.clk.part + 1).setWidth 32, part := 0 } := by
  rw [tickBody_eq, if_pos h]

theorem tickBody_of_no_fold {s : State} (h : (s.clk.part + 1).toNat ≤ s.cfg.foldThreshold) : tickBody s =
    s.setClk { s.clk with part := s.clk.part + 1 } := by
  rw [tickBody_eq, if_neg (by omega)]

/-- Settles O11: the two branches of the tick body. -/
theorem clkTickIncrementsAndFolds : Obligations.ClkTickIncrementsAndFolds := by
  unfold Obligations.ClkTickIncrementsAndFolds
  refine fun s hf => ⟨fun h => ?fold, fun h => ?noFold⟩
  case fold =>
    rw [exec_clkTick hf, tickBody_of_fold h]
    rfl
  case noFold =>
    rw [exec_clkTick hf, tickBody_of_no_fold h]
    rfl

/-- The sub-counter is at most the threshold, which leaves its increment room (R29). -/
structure PartInv (s : State) : Prop where
  threshold : s.cfg.foldThreshold ≤ 254
  part : s.clk.part.toNat ≤ s.cfg.foldThreshold

/-- A tick adds one to what `now()` returns, folded or not (R102). -/
theorem nowValue_tickBody {s : State} (h : PartInv s) :
    nowValue (tickBody s) = nowValue s + 1 ∧ PartInv (tickBody s) := by
  obtain ⟨hthr, hpart⟩ := h
  have hsucc : (s.clk.part + 1).setWidth 32 = s.clk.part.setWidth 32 + 1 := by bv_omega
  by_cases hfold : s.cfg.foldThreshold < (s.clk.part + 1).toNat
  · rw [tickBody_of_fold hfold]
    refine ⟨?_, hthr, Nat.zero_le _⟩
    show s.clk.counter + (s.clk.part + 1).setWidth 32 + BitVec.setWidth 32 0 = _
    rw [hsucc, nowValue]
    bv_omega
  · rw [tickBody_of_no_fold (by omega)]
    refine ⟨?_, hthr, Nat.le_of_not_lt hfold⟩
    show s.clk.counter + (s.clk.part + 1).setWidth 32 = _
    rw [hsucc, nowValue, BitVec.add_assoc]

/-- Settles O12: the word is the tick body. -/
theorem clkTickAdvancesNowByOne : Obligations.ClkTickAdvancesNowByOne := by
  unfold Obligations.ClkTickAdvancesNowByOne
  intro s hthr hpart hf
  obtain ⟨hnow, hinv⟩ := nowValue_tickBody ⟨hthr, hpart⟩
  exact ⟨_, exec_clkTick hf, hnow, hinv.part⟩

theorem execList_append (is js : List Instr) (s : State) :
    execList (is ++ js) s = andThen (execList is s) (execList js) := by
  induction is generalizing s with
  | nil => rfl
  | cons i is ih =>
    show andThen (exec i s) (execList (is ++ js)) = andThen (andThen (exec i s) (execList is)) (execList js)
    cases exec i s with
    | next t => exact ih t
    | fault => rfl
    | refused => rfl

/-- Ticks that stay within the threshold only count in the sub-counter. -/
theorem execList_ticks {k : Nat} {s : State} (hf : s.fault = none) (hthr : s.cfg.foldThreshold ≤ 254)
    (hk : s.clk.part.toNat + k ≤ s.cfg.foldThreshold) : execList (List.replicate k .clkTick) s =
      .next (s.setClk { s.clk with part := s.clk.part + BitVec.ofNat 8 k }) := by
  induction k generalizing s with
  | zero =>
    simp only [List.replicate_zero, execList, BitVec.add_zero]
    rfl
  | succ k ih =>
    have hsucc : (s.clk.part + 1).toNat = s.clk.part.toNat + 1 := by bv_omega
    rw [List.replicate_succ, execList, exec_clkTick hf, andThen_next', tickBody_of_no_fold (by omega),
      ih (by exact hf) (by exact hthr) (by simp only [State.setClk_clk, State.setClk_cfg, hsucc]; omega)]
    have hsum : s.clk.part + 1 + BitVec.ofNat 8 k = s.clk.part + BitVec.ofNat 8 (k + 1) := by bv_omega
    simp only [State.setClk_clk, State.setClk_setClk, hsum]

/-- Settles O13: from a cleared sub-counter `FOLD_THRESHOLD` ticks stay below the fold, and the next one folds
them all. -/
theorem foldOnEveryThresholdPlusOneTicks : Obligations.FoldOnEveryThresholdPlusOneTicks := by
  unfold Obligations.FoldOnEveryThresholdPlusOneTicks
  intro s hthr hpart hf
  have hticks : ∀ k, k ≤ s.cfg.foldThreshold → execList (List.replicate k .clkTick) s =
      .next (s.setClk { s.clk with part := BitVec.ofNat 8 k }) := by
    intro k hk
    rw [execList_ticks hf hthr (by rw [hpart]; simpa using hk), hpart]
    simp
  refine ⟨hticks, ?_⟩
  have hn : (BitVec.ofNat 8 s.cfg.foldThreshold + 1).toNat = s.cfg.foldThreshold + 1 := by bv_omega
  have hwide : (BitVec.ofNat 8 s.cfg.foldThreshold + 1).setWidth 32 = BitVec.ofNat 32 (s.cfg.foldThreshold + 1) := by
    bv_omega
  rw [List.replicate_succ', execList_append, hticks _ (le_refl _), andThen_next', execList, exec_clkTick (by exact hf),
    tickBody_of_fold (by simp only [State.setClk_clk, State.setClk_cfg, hn]; omega), andThen_next']
  simp only [State.setClk_clk, State.setClk_setClk, hwide]
  rfl

/-- With the phase aligned the multiples of the prescale are those of the cycles passed. -/
theorem countsIn_of_aligned {p : Prescale} {t : Nat} (h : t % p.cycles = 0) (n : Nat) :
    countsIn true p t n = n / p.cycles := by
  obtain ⟨m, rfl⟩ := Nat.dvd_of_mod_eq_zero h
  rw [countsIn, if_pos rfl, Nat.mul_add_div (prescale_cycles_pos p), Nat.mul_div_cancel_left _ (prescale_cycles_pos p),
    Nat.add_sub_cancel_left]

/-- Settles O15: the `CLK_CMP + 1` counts to the match take one tick period, aligned, and no fewer cycles. -/
theorem firstTickAfterOnePeriod : Obligations.FirstTickAfterOnePeriod := by
  unfold Obligations.FirstTickAfterOnePeriod
  intro s hc hf hI hs halign
  refine ⟨startClock s, execClkStart_of_stopped hf hs, ?_⟩
  have hcmp : ((startClock s).t0.cmp.toNat : Int) = s.cfg.clkCmp := toNat_ofInt_clkCmp hc
  have hdiv : (startClock s).t0.cmp.toNat + 1 = s.cfg.clkDivisor := by
    rw [Config.clkCmp] at hcmp
    omega
  have hcounts : ∀ k, (advance k (startClock s)).t0 = Timer0.count^[k / s.cfg.clkPrescale.cycles] (startClock s).t0 := by
    intro k
    rw [advance_of_masked k (show (startClock s).cpuI = false from hI)]
    exact congrArg (Timer0.count^[·] (startClock s).t0) (countsIn_of_aligned halign k)
  have hclosed : ∀ k, _ := fun k => Timer0.count_iterate_of_le (k / s.cfg.clkPrescale.cycles)
    (x := (startClock s).t0) (Nat.zero_le _)
  have hpos := prescale_cycles_pos s.cfg.clkPrescale
  have hzero : (startClock s).t0.cnt.toNat = 0 := rfl
  have hpend : (startClock s).t0.pend = false := rfl
  simp only [hzero, hpend, hdiv, Nat.zero_add, Bool.false_eq_true, false_or] at hclosed
  have hperiod : s.cfg.tickPeriodCyc / s.cfg.clkPrescale.cycles = s.cfg.clkDivisor :=
    Nat.mul_div_cancel_left _ hpos
  refine ⟨fun k hk => ?notBefore, ?pend, ?cnt⟩
  case notBefore =>
    have hlt : k / s.cfg.clkPrescale.cycles < s.cfg.clkDivisor := Nat.div_lt_of_lt_mul hk
    rw [hcounts]
    by_contra h
    have := (hclosed k).2.mp (by simpa using h)
    omega
  case pend =>
    rw [hcounts]
    exact (hclosed _).2.mpr (by rw [hperiod]; omega)
  case cnt =>
    rw [hcounts]
    refine BitVec.eq_of_toNat_eq ((hclosed _).1.trans ?_)
    rw [hperiod, Nat.mod_self]
    rfl

end Sys2Proof.Machine
end

section
/-! The words of the servo multiplexer (41_servo.md): registration (R123, R124), attach (R125 to R127), the stored
widths (R128 to R131) and the handler body (R135). -/

namespace Sys2Proof.Machine

/-! ### Registration (R123, R124) -/

theorem exec_srvNew {s : State} (pin : Byte) (hf : s.fault = none) :
    exec (.srvNew pin) s = .next (registerServo pin s) :=
  unlessFaulted_of_none hf fun u => .next (registerServo pin u)

theorem registerServo_of_not_owned {s : State} (pin : Byte) (ho : s.srv.owned = false) :
    registerServo pin s = s.setRes (.err errNotInitialized) := by
  simp [registerServo, ho]

theorem registerServo_of_full {s : State} (pin : Byte) (ho : s.srv.owned = true) (hn : s.srv.slots.length = 12) :
    registerServo pin s = s.setRes (.err errTooManyServos) := by
  simp [registerServo, ho, State.srvCount, hn, maxServos]

theorem registerServo_of_room {s : State} (pin : Byte) (ho : s.srv.owned = true) (hn : s.srv.slots.length < 12) :
    registerServo pin s = (s.setSrv { s.srv with slots := s.srv.slots ++ [newSlot s.cfg pin] }).setRes
      (.handle s.srv.slots.length) := by
  have hne : s.srv.slots.length ≠ 12 := by omega
  simp [registerServo, ho, State.srvCount, hne, maxServos]

/-- R9 (e): the default width fits its 16 bits. -/
theorem defaultTicks_lt {c : Config} (hc : c.wellFormed = true) : c.defaultTicks < 65536 := by
  have hrefresh : c.refreshTicks + c.guardTicks < 65536 := by
    simp only [Config.wellFormed, Bool.and_eq_true, decide_eq_true_eq] at hc
    omega
  have hmono : c.defaultTicks ≤ c.refreshTicks := Nat.div_le_div_right (Nat.mul_le_mul_right _ (by decide))
  omega

/-- Settles O18: the three cases of the registration. -/
theorem srvNewRegistersSlot : Obligations.SrvNewRegistersSlot := by
  unfold Obligations.SrvNewRegistersSlot
  refine fun s pin hf => ⟨fun ho => ?notOwned, fun ho hn => ?full, fun ho hn hc => ?room⟩
  case notOwned =>
    rw [exec_srvNew pin hf, registerServo_of_not_owned pin ho]
    rfl
  case full =>
    rw [exec_srvNew pin hf, registerServo_of_full pin ho hn]
    rfl
  case room =>
    refine ⟨BitVec.ofNat 16 s.cfg.defaultTicks, ?_, ?_⟩
    · rw [BitVec.toNat_ofNat, Nat.mod_eq_of_lt (defaultTicks_lt hc)]
      rfl
    · rw [exec_srvNew pin hf, registerServo_of_room pin ho hn]
      rfl

/-- Registrations that have room append their slots in order; the last handle is the last index. -/
theorem execList_srvNew {pins : List Byte} {s : State} (hf : s.fault = none) (ho : s.srv.owned = true)
    (hn : s.srv.slots.length + pins.length ≤ 12) : ∃ res, execList (pins.map .srvNew) s =
      .next ((s.setSrv { s.srv with slots := s.srv.slots ++ pins.map (newSlot s.cfg) }).setRes res) ∧
      (pins = [] → res = s.res) ∧ (pins ≠ [] → res = .handle (s.srv.slots.length + pins.length - 1)) := by
  induction pins generalizing s with
  | nil => exact ⟨s.res, by simp [execList]; rfl, fun _ => rfl, fun h => absurd rfl h⟩
  | cons pin pins ih =>
    simp only [List.length_cons] at hn
    have hroom := registerServo_of_room pin ho (by omega)
    have hlen : (registerServo pin s).srv.slots.length = s.srv.slots.length + 1 := by rw [hroom]; simp
    obtain ⟨res, hexec, hnil, hcons⟩ := ih (s := registerServo pin s) (by rw [hroom]; exact hf)
      (by rw [hroom]; exact ho) (by omega)
    simp only [List.map_cons, execList, exec_srvNew pin hf, andThen_next', hexec, List.length_cons]
    rw [hlen] at hcons
    refine ⟨res, by rw [hroom]; simp; rfl, fun h => by simp at h, fun _ => ?_⟩
    by_cases hp : pins = []
    · rw [hnil hp, hroom, hp]
      rfl
    · rw [hcons hp]
      congr 1
      omega

/-- Registrations with twelve slots only leave the error. -/
theorem execList_srvNew_of_full {pins : List Byte} {s : State} (hf : s.fault = none) (ho : s.srv.owned = true)
    (hn : s.srv.slots.length = 12) (hp : pins ≠ []) :
    execList (pins.map .srvNew) s = .next (s.setRes (.err errTooManyServos)) := by
  induction pins generalizing s with
  | nil => exact absurd rfl hp
  | cons pin pins ih =>
    simp only [List.map_cons, execList, exec_srvNew pin hf, andThen_next', registerServo_of_full pin ho hn]
    by_cases hp' : pins = []
    · rw [hp']
      rfl
    · exact ih (s := s.setRes (.err errTooManyServos)) hf ho hn hp'

/-- Settles O19: the registrations that have room, and those after the twelfth. -/
theorem twelveServosAndNoMore : Obligations.TwelveServosAndNoMore := by
  unfold Obligations.TwelveServosAndNoMore
  refine fun s hf ho hs => ⟨fun pins hn => ?inOrder, fun pins more hn hmore => ?later⟩
  case inOrder =>
    obtain ⟨res, hexec, -, hres⟩ := execList_srvNew (pins := pins) hf ho (by simpa [hs] using hn)
    refine ⟨_, hexec, ?_, fun hp => ?_⟩
    · simp [hs, newSlot, Function.comp_def]
    · simpa [hs] using hres hp
  case later =>
    obtain ⟨res, hexec, -⟩ := execList_srvNew (pins := pins) hf ho (by simp [hs, hn])
    refine ⟨_, hexec, execList_srvNew_of_full hf ho ?_ hmore⟩
    simp [hs, hn]

/-! ### Attach (R125 to R127) -/

theorem exec_srvAttach_of_detached {s : State} {h : Byte} {sl : Slot} (hf : s.fault = none)
    (hs : s.srv.slots[h.toNat]? = some sl) (ha : sl.attached = false) : exec (.srvAttach h) s =
      .next (attachSlot h.toNat sl (BitVec.ofNat 16 minPulseUs) (BitVec.ofNat 16 maxPulseUs) s) := by
  rw [exec_srvAttach, execSrvAttach, unlessFaulted_of_none hf, withHandle_of_slot _ hs ha]

/-- Settles O20: what the attach writes, with the default limits. -/
theorem srvAttachArmsOnFirst : Obligations.SrvAttachArmsOnFirst := by
  unfold Obligations.SrvAttachArmsOnFirst
  intro s h sl hf hs ha
  rw [exec_srvAttach_of_detached hf hs ha, attachSlot_eq]
  rfl

theorem exec_srvAttachl_of_detached {s : State} {h : Byte} {sl : Slot} (lo hi : Half) (hf : s.fault = none)
    (hs : s.srv.slots[h.toNat]? = some sl) (ha : sl.attached = false) : exec (.srvAttachl h lo hi) s =
      if hi.toNat < lo.toNat then .refused .badLimits
      else if 65535 < s.cfg.usToTicks hi.toNat then .refused .limitTooLarge
      else .next (attachSlot h.toNat sl lo hi s) := by
  rw [exec_srvAttachl, execSrvAttachl, unlessFaulted_of_none hf, withHandle_of_slot _ hs ha]

/-- Settles O21: the two checks of the limits in order, and what the attach writes with them. -/
theorem srvAttachlSetsLimits : Obligations.SrvAttachlSetsLimits := by
  unfold Obligations.SrvAttachlSetsLimits
  intro s h lo hi sl hf hs ha
  rw [exec_srvAttachl_of_detached lo hi hf hs ha]
  refine ⟨fun hlt => ?badLimits, fun hle hlarge => ?tooLarge, fun hle hfits => ?attach⟩
  case badLimits => rw [if_pos hlt]
  case tooLarge => rw [if_neg (by omega), if_pos hlarge]
  case attach =>
    rw [if_neg (by omega), if_neg (by omega), attachSlot_eq]
    rfl

/-! ### Widths (R128 to R131) -/

theorem usToTicks_mono (c : Config) {u v : Nat} (h : u ≤ v) : c.usToTicks u ≤ c.usToTicks v :=
  Nat.div_le_div_right (Nat.mul_le_mul_right _ h)

/-- The map of an angle, read as 180 above 180, onto the limits. -/
theorem angleToUs_eq (sl : Slot) (v : Nat) : angleToUs sl v =
    sl.minUs.toNat + (min v 180 * (sl.maxUs.toNat - sl.minUs.toNat)) / 180 := by
  rw [angleToUs, clamp_eq_max_min v (Nat.zero_le angleMax), Nat.zero_max]
  rfl

theorem angleToUs_mono (sl : Slot) {u v : Nat} (h : u ≤ v) : angleToUs sl u ≤ angleToUs sl v := by
  rw [angleToUs_eq, angleToUs_eq]
  have hmul : min u 180 * (sl.maxUs.toNat - sl.minUs.toNat) ≤ min v 180 * (sl.maxUs.toNat - sl.minUs.toNat) :=
    Nat.mul_le_mul_right _ (by omega)
  omega

theorem angleToUs_le (sl : Slot) (v : Nat) (hle : sl.minUs.toNat ≤ sl.maxUs.toNat) :
    angleToUs sl v ≤ sl.maxUs.toNat := by
  rw [angleToUs_eq]
  have hmul : min v 180 * (sl.maxUs.toNat - sl.minUs.toNat) ≤ 180 * (sl.maxUs.toNat - sl.minUs.toNat) :=
    Nat.mul_le_mul_right _ (by omega)
  omega

/-- The width of an angle needs no clamp: the map stays within the limits. -/
theorem widthTicks_angleToUs (c : Config) (sl : Slot) (v : Nat) (hle : sl.minUs.toNat ≤ sl.maxUs.toNat) :
    widthTicks c sl (angleToUs sl v) = c.usToTicks (angleToUs sl v - c.trimUs) := by
  have hlo : sl.minUs.toNat ≤ angleToUs sl v := by rw [angleToUs_eq]; omega
  have hhi := angleToUs_le sl v hle
  rw [widthTicks_of_ordered c _ hle]
  congr 2
  omega

theorem widthTicks_mono (c : Config) {sl : Slot} {u v : Nat} (hle : sl.minUs.toNat ≤ sl.maxUs.toNat) (h : u ≤ v) :
    widthTicks c sl u ≤ widthTicks c sl v := by
  rw [widthTicks_of_ordered c u hle, widthTicks_of_ordered c v hle]
  exact usToTicks_mono c (by omega)

theorem exec_srvWrite_of_attached {s : State} {h : Byte} {sl : Slot} (v : Half) (hf : s.fault = none)
    (hs : s.srv.slots[h.toNat]? = some sl) (ha : sl.attached = true) : exec (.srvWrite h v) s =
      .next (storeTicks h.toNat sl (widthTicks s.cfg sl (angleToUs sl v.toNat)) s) := by
  rw [exec_srvWrite, execSrvWrite, unlessFaulted_of_none hf, writeAngle, withHandle_of_slot _ hs ha]

/-- Settles O24: the store in a quiet state, of the width of the mapped angle. -/
theorem srvWriteStoresAngle : Obligations.SrvWriteStoresAngle := by
  unfold Obligations.SrvWriteStoresAngle
  intro s h v sl hq hf hs ha hle
  rw [exec_srvWrite_of_attached v hf hs ha, storeTicks_of_quiet _ _ _ hq, widthTicks_angleToUs _ _ _ hle, angleToUs_eq]
  rfl

/-- The width that a write word asks of a slot. -/
def requestedTicks (c : Config) (sl : Slot) : Instr → Nat
  | .srvWrite _ x => widthTicks c sl (angleToUs sl x.toNat)
  | .srvWriteus _ x => widthTicks c sl x.toNat
  | _ => 0

/-- A write that completes stored into its slot what the slot and the request give. -/
theorem exec_write_slots {s t : State} {h : Byte} {x : Half} {i : Instr}
    (hi : i = .srvWrite h x ∨ i = .srvWriteus h x) (e : exec i s = .next t) :
    ∃ sl, s.srv.slots[h.toNat]? = some sl ∧ t.srv.slots = s.srv.slots.set h.toNat
      { sl with ticks := BitVec.ofNat 16 (requestedTicks s.cfg sl i) } := by
  obtain rfl | rfl := hi
  · obtain ⟨sl, hs, -, rfl⟩ := writeAngle_next (unlessFaulted_next e).2
    exact ⟨sl, hs, (storeTicks_frame _ _ _ s).slots⟩
  · obtain ⟨sl, hs, -, rfl⟩ := writeWidth_next (unlessFaulted_next e).2
    exact ⟨sl, hs, (storeTicks_frame _ _ _ s).slots⟩

/-- Settles O23: the clamp, the trim, the map and the conversion are monotone, and a write stores into its own
slot what that slot and the request give. -/
theorem widthLaws : Obligations.WidthLaws := by
  unfold Obligations.WidthLaws
  refine ⟨fun c sl u v hle huv => ⟨widthTicks_mono c hle huv, widthTicks_mono c hle (angleToUs_mono sl huv)⟩,
    fun c sl u hle => ?bounds, by decide, fun s t h x i hi e => ⟨fun j hj => ?others, fun s' t' hc hsl e' => ?own⟩⟩
  case bounds =>
    have hmin : widthTicks c sl sl.minUs.toNat = c.usToTicks (sl.minUs.toNat - c.trimUs) := by
      rw [widthTicks_of_ordered c _ hle]
      congr 2
      omega
    have hmax : widthTicks c sl sl.maxUs.toNat = c.usToTicks (sl.maxUs.toNat - c.trimUs) := by
      rw [widthTicks_of_ordered c _ hle]
      congr 2
      omega
    refine ⟨?_, ?_, hmin, hmax⟩
    · rw [widthTicks_of_ordered c u hle]
      exact usToTicks_mono c (by omega)
    · rw [widthTicks_of_ordered c u hle]
      exact usToTicks_mono c (by omega)
  case others =>
    obtain ⟨sl, -, ht⟩ := exec_write_slots hi e
    rw [ht, List.getElem?_set_ne (Ne.symm hj)]
  case own =>
    obtain ⟨sl, hs, ht⟩ := exec_write_slots hi e
    obtain ⟨sl', hs', ht'⟩ := exec_write_slots hi e'
    obtain rfl : sl' = sl := Option.some.inj (hs'.symm.trans (hsl.trans hs))
    rw [ht, ht', hc, List.getElem?_set_self (lt_srvCount hs), List.getElem?_set_self (lt_srvCount hs')]

/-! ### The handler body (R135) -/

theorem exec_srvIsr {s : State} (hf : s.fault = none) : exec .srvIsr s = .next (isrBody s) :=
  exec_of_bodyWord (src := .servo) hf fun _ => rfl

/-- `pin_write` on an output whose level changes. -/
theorem pinWrite_of_change {p : Byte} {l : Level} {s : State} (hd : (getPin s p).dir = .output)
    (hl : (getPin s p).level ≠ l) : pinWrite p l s =
      (s.setPins (s.pins.set p.toNat { dir := .output, level := l } p.isLt)).setTrace
        (s.trace ++ [{ t := s.t, pin := p, level := l }]) := by
  have hno : ¬ ((getPin s p).dir = .input ∨ (getPin s p).level = l) := by
    rintro (h | h)
    · rw [hd] at h; cases h
    · exact hl h
  rw [pinWrite, if_neg hno, setPinLevel_eq, hd]

theorem pinWrite_of_level {p : Byte} {l : Level} {s : State} (h : (getPin s p).level = l) : pinWrite p l s = s :=
  if_pos (.inr h)

theorem isrEndPulse_of_frameStart {s : State} (h : s.srv.channel = -1) : isrEndPulse s = setT1Cnt 0 s := by
  have hneg : s.srv.channel.toInt < 0 := by rw [h]; decide
  exact if_pos hneg

/-- The channel of a slot, as a number (R35). -/
theorem toInt_of_channel {ch : Byte} {c : Nat} (hch : ch = BitVec.ofNat 8 c) (hc : c ≤ 12) : ch.toInt = c := by
  subst hch
  rw [BitVec.toInt_eq_toNat_cond, BitVec.toNat_ofNat]
  split <;> omega

theorem channelSlot_of_channel {s : State} {c : Nat} (hch : s.srv.channel = BitVec.ofNat 8 c) (hc : c ≤ 12) :
    channelSlot s = s.srv.slots[c]? := by
  rw [channelSlot, toInt_of_channel hch hc]
  rfl

theorem isrEndPulse_of_slot {s : State} {c : Nat} {sl : Slot} (hch : s.srv.channel = BitVec.ofNat 8 c) (hc : c ≤ 12)
    (hs : s.srv.slots[c]? = some sl) :
    isrEndPulse s = if sl.attached then pinWrite sl.pin .low s else s := by
  have hneg : ¬ s.srv.channel.toInt < 0 := by rw [toInt_of_channel hch hc]; omega
  rw [isrEndPulse, if_neg hneg, channelSlot_of_channel hch hc, hs]

theorem isrServe_of_slot {s : State} {c : Nat} {sl : Slot} (hch : s.srv.channel = BitVec.ofNat 8 c) (hc : c ≤ 12)
    (hs : s.srv.slots[c]? = some sl) : isrServe s = isrStartPulse sl s := by
  have hlt : s.srv.channel.toInt < (s.srvCount : Int) := by
    have := lt_srvCount hs
    rw [toInt_of_channel hch hc]
    omega
  rw [isrServe, if_pos hlt, channelSlot_of_channel hch hc, hs]

theorem isrServe_of_end {s : State} {c : Nat} (hch : s.srv.channel = BitVec.ofNat 8 c) (hc : c ≤ 12)
    (hs : s.srv.slots[c]? = none) : isrServe s = isrEndFrame s := by
  have hlt : ¬ s.srv.channel.toInt < (s.srvCount : Int) := by
    have hlen : s.srvCount ≤ c := List.getElem?_eq_none_iff.mp hs
    rw [toInt_of_channel hch hc]
    omega
  rw [isrServe, if_neg hlt]

theorem isrEndFrame_eq (s : State) : isrEndFrame s = setChannel (-1) (setT1Cmp
    (if s.t1.cnt.toNat + s.cfg.guardTicks < s.cfg.refreshTicks then BitVec.ofNat 16 s.cfg.refreshTicks
      else s.t1.cnt + BitVec.ofNat 16 s.cfg.guardTicks) s) := by
  unfold isrEndFrame
  split <;> rfl

theorem isrBody_eq (s : State) : isrBody s =
    isrServe (setChannel (s.srv.channel + 1) (isrEndPulse s)) := by
  rw [isrBody, isrEndPulse_srv]

/-- The end of a slot's pulse, and the channel after it. -/
theorem isrBody_of_slot {s : State} {c : Nat} {sl : Slot} (hch : s.srv.channel = BitVec.ofNat 8 c) (hc : c < 12)
    (hs : s.srv.slots[c]? = some sl) : isrBody s = isrServe (setChannel (BitVec.ofNat 8 (c + 1))
      (if sl.attached then pinWrite sl.pin .low s else s)) := by
  have hnext : s.srv.channel + 1 = BitVec.ofNat 8 (c + 1) := by rw [hch]; bv_omega
  rw [isrBody_eq, isrEndPulse_of_slot hch hc.le hs, hnext]

theorem isrBody_of_frameStart {s : State} (hch : s.srv.channel = -1) :
    isrBody s = isrServe (setChannel 0 (setT1Cnt 0 s)) := by
  rw [isrBody_eq, isrEndPulse_of_frameStart hch, hch]
  rfl

/-- The end of a pulse leaves the slots and T1. -/
theorem endPulse_keeps (sl : Slot) (s : State) :
    (if sl.attached then pinWrite sl.pin .low s else s).srv = s.srv ∧
    (if sl.attached then pinWrite sl.pin .low s else s).t1 = s.t1 ∧
    (if sl.attached then pinWrite sl.pin .low s else s).cfg = s.cfg := by
  split
  · exact ⟨pinWrite_srv _ _ _, pinWrite_t1 _ _ _, (pinWrite_frame _ _ _).cfg⟩
  · exact ⟨rfl, rfl, rfl⟩

/-- Settles O27: `pin_write` case by case; then the body from channel -1, with and without a slot 0, and from a
slot, with and without a next one. -/
theorem srvIsrWalksSlots : Obligations.SrvIsrWalksSlots := by
  unfold Obligations.SrvIsrWalksSlots
  refine ⟨fun p l s => ⟨pinWrite_of_input l, pinWrite_of_level, pinWrite_of_change⟩, fun s hf => ?_⟩
  rw [exec_srvIsr hf]
  refine ⟨fun hch hs => ?emptyFrame, fun sl hch hs => ?firstSlot, fun c cur next hch hc hcur hnext => ?nextSlot,
    fun c cur hch hc hcur hnext => ?lastSlot⟩
  case emptyFrame =>
    have hnone : (setChannel 0 (setT1Cnt 0 s)).srv.slots[0]? = none := by
      show s.srv.slots[0]? = none
      rw [hs]
      rfl
    rw [isrBody_of_frameStart hch, isrServe_of_end (c := 0) rfl (by decide) hnone, isrEndFrame_eq]
    have hcnt : (setChannel 0 (setT1Cnt 0 s)).t1.cnt = 0 := rfl
    have hcfg : (setChannel 0 (setT1Cnt 0 s)).cfg = s.cfg := rfl
    have hsrv : ({ s.srv with channel := -1 } : Servo) = s.srv := by rw [← hch]
    have hend : ∀ cmp, setChannel (-1) (setT1Cmp cmp (setChannel 0 (setT1Cnt 0 s))) =
        (s.setT1 { s.t1 with cnt := 0, cmp := cmp }).setSrv { s.srv with channel := -1 } := fun _ => rfl
    rw [hcnt, hcfg, hend, hsrv]
    simp only [BitVec.ofNat_eq_ofNat, BitVec.zero_add, BitVec.toNat_ofNat, Nat.zero_mod, Nat.zero_add]
    rfl
  case firstSlot =>
    have hs' : (setChannel 0 (setT1Cnt 0 s)).srv.slots[0]? = some sl := hs
    have hcmp : (0 : Half) + sl.ticks = sl.ticks := BitVec.zero_add _
    rw [isrBody_of_frameStart hch, isrServe_of_slot (c := 0) rfl (by decide) hs', isrStartPulse]
    show (.next (if sl.attached = true then pinWrite sl.pin .high (setT1Cmp (0 + sl.ticks) _)
      else setT1Cmp (0 + sl.ticks) _) : Out) = _
    rw [hcmp]
    rfl
  case nextSlot =>
    obtain ⟨hsrv, ht1, hcfg⟩ := endPulse_keeps cur s
    rw [isrBody_of_slot hch hc hcur]
    dsimp only
    generalize (if cur.attached then pinWrite cur.pin .low s else s) = s0 at hsrv ht1 hcfg ⊢
    have hs' : (setChannel (BitVec.ofNat 8 (c + 1)) s0).srv.slots[c + 1]? = some next := by
      show s0.srv.slots[c + 1]? = some next
      rw [hsrv, hnext]
    rw [isrServe_of_slot (c := c + 1) rfl (by omega) hs', isrStartPulse, ← ht1]
    rfl
  case lastSlot =>
    obtain ⟨hsrv, ht1, hcfg⟩ := endPulse_keeps cur s
    rw [isrBody_of_slot hch hc hcur]
    dsimp only
    generalize (if cur.attached then pinWrite cur.pin .low s else s) = s0 at hsrv ht1 hcfg ⊢
    have hs' : (setChannel (BitVec.ofNat 8 (c + 1)) s0).srv.slots[c + 1]? = none := by
      show s0.srv.slots[c + 1]? = none
      rw [hsrv, hnext]
    rw [isrServe_of_end (c := c + 1) rfl (by omega) hs', isrEndFrame_eq, ← ht1, ← hcfg]
    rfl

end Sys2Proof.Machine
end

section
/-! The ranging driver and one pass of its loop (42_ranging.md R151, R158, R161), and the commands of
the dispatcher (44_host.md R213 to R217). -/

namespace Sys2Proof.Machine

/-! ### The driver (R151) -/

theorem exec_rngNew {s : State} (trig echo : Byte) (temp : Half) (hf : s.fault = none) :
    exec (.rngNew trig temp (echo.setWidth 16)) s = newDriver trig temp echo s := by
  have h : exec (.rngNew trig temp (echo.setWidth 16)) s = execRngNew trig temp (echo.setWidth 16) s := rfl
  rw [h, execRngNew, unlessFaulted_of_none hf, byteOperand_setWidth]

section Refusal
variable {trig echo : Byte} {temp : Half} {s : State}

theorem driverRefusal_of_driver (h : s.rng.cfg.isSome = true) :
    driverRefusal trig temp echo s = some .driverExists := if_pos h

theorem driverRefusal_of_samePin (h : s.rng.cfg = none) (hp : trig = echo) :
    driverRefusal trig temp echo s = some .samePin := by
  simp [driverRefusal, h, hp]

theorem driverRefusal_of_badTemperature (h : s.rng.cfg = none) (hp : trig ≠ echo)
    (ht : s.cfg.speedOfSound temp.toInt ≤ 0) : driverRefusal trig temp echo s = some .badTemperature := by
  simp [driverRefusal, h, hp, temperature, ht]

theorem driverRefusal_eq_none (h : s.rng.cfg = none) (hp : trig ≠ echo)
    (ht : 0 < s.cfg.speedOfSound temp.toInt) : driverRefusal trig temp echo s = none := by
  simp [driverRefusal, h, hp, temperature, not_le.mpr ht]

theorem newDriver_of_refusal {r : Refusal} (h : driverRefusal trig temp echo s = some r) :
    newDriver trig temp echo s = .refused r := by
  rw [newDriver, h]

theorem newDriver_of_none (h : driverRefusal trig temp echo s = none) :
    newDriver trig temp echo s = .next (constructDriver trig temp echo s) := by
  rw [newDriver, h]

end Refusal

/-- Settles O31: the refusals in their order, and what the construction writes. -/
theorem rngNewConstructsDriver : Obligations.RngNewConstructsDriver := by
  unfold Obligations.RngNewConstructsDriver
  intro s trig echo temp hf
  rw [exec_rngNew trig echo temp hf]
  refine ⟨fun h => newDriver_of_refusal (driverRefusal_of_driver h),
    fun h hp => newDriver_of_refusal (driverRefusal_of_samePin h hp),
    fun h hp ht => newDriver_of_refusal (driverRefusal_of_badTemperature h hp ht), fun h hp ht => ?constructed⟩
  case constructed =>
    obtain ⟨pins, e, hpins⟩ := constructDriver_eq trig temp echo s
    refine ⟨pins, ?_, fun p => (hpins p).trans ?_⟩
    · rw [newDriver_of_none (driverRefusal_eq_none h hp ht), e]
      rfl
    · by_cases hpt : p = trig
      · subst hpt
        simp [hp]
      · simp [hpt]

/-! ### One pass of the loop (R158) -/

theorem exec_rngPoll {s : State} (hf : s.fault = none) : exec .rngPoll s = rngPoll s := unlessFaulted_of_none hf rngPoll

theorem rngPoll_of_no_loop {s : State} (h : ∀ start, s.meas ≠ .inLoop start) : rngPoll s = .refused .noLoop := by
  unfold rngPoll
  cases hm : s.meas with
  | inLoop start => exact absurd hm (h start)
  | noMeas => rfl
  | exiting => rfl

theorem rngPoll_of_loop {s : State} {start : Quad} (h : s.meas = .inLoop start) :
    rngPoll s = .next (pollPass start s) := by
  rw [rngPoll, h]

theorem Quiet.rearm {s : State} (h : Quiet s) : Quiet (rearm s) := by
  by_cases hdue : s.rng.state = .triggered ∧ s.rng.trigTime.isSome = true
  · rw [rearm_of_due hdue]
    exact (h.setEdgeMode .falling).congr rfl rfl rfl rfl rfl
  · rw [rearm_of_not_due hdue]
    exact h

theorem driverTimeout_of_driver {s : State} {d : Driver} (h : s.rng.cfg = some d) :
    driverTimeout s = s.cfg.timeoutTicks d.temp.toInt := by
  rw [driverTimeout, h]
  rfl

/-- A pass past the timeout exits. -/
theorem pollPass_of_timeout {s : State} {start : Quad} (hq : Quiet s)
    (ht : driverTimeout s ≤ (nowValue s - start).toNat) : pollPass start s = s.setMeas .exiting := by
  rw [pollPass_eq, dispatch_of_quiet hq, if_pos ht]

/-- A pass before the timeout re-arms when due, and exits when both timestamps were read. -/
theorem pollPass_of_no_timeout {s : State} {start : Quad} (hq : Quiet s)
    (ht : (nowValue s - start).toNat < driverTimeout s) : pollPass start s =
      if s.rng.trigTime.isSome ∧ s.rng.echoTime.isSome then (rearm s).setMeas .exiting else rearm s := by
  rw [pollPass_eq, dispatch_of_quiet hq, if_neg (by omega), dispatch_of_quiet hq.rearm]

theorem setMeas_of_meas {s : State} {m : Meas} (h : s.meas = m) : s.setMeas m = s := by
  rw [← h]
  rfl

/-- Settles O34: the pass in a quiet state, where its critical sections take no interrupt. -/
theorem rngPollPass : Obligations.RngPollPass := by
  unfold Obligations.RngPollPass
  intro s hf
  rw [exec_rngPoll hf]
  refine ⟨rngPoll_of_no_loop, fun start d hq hm hd => ?_⟩
  rw [rngPoll_of_loop hm]
  refine ⟨fun ht => ?timeout, fun ht => ⟨fun hs htrig => ?rearmed, fun hnot => ?kept⟩⟩
  case timeout =>
    rw [pollPass_of_timeout hq (by rw [driverTimeout_of_driver hd]; exact ht)]
    rfl
  case rearmed =>
    rw [pollPass_of_no_timeout hq (by rw [driverTimeout_of_driver hd]; exact ht), rearm_of_due ⟨hs, htrig⟩]
    by_cases hecho : s.rng.echoTime.isSome = true
    · rw [if_pos ⟨htrig, hecho⟩, if_pos hecho]
      rfl
    · rw [if_neg (fun h => hecho h.2), if_neg hecho, ← hm]
      rfl
  case kept =>
    have hnotDue : ¬ (s.rng.state = .triggered ∧ s.rng.trigTime.isSome = true) := by
      rintro ⟨hs, htrig⟩
      obtain hne | hnone := hnot
      · exact hne hs
      · rw [hnone] at htrig
        cases htrig
    rw [pollPass_of_no_timeout hq (by rw [driverTimeout_of_driver hd]; exact ht), rearm_of_not_due hnotDue]
    by_cases hboth : s.rng.trigTime.isSome = true ∧ s.rng.echoTime.isSome = true
    · rw [if_pos hboth, if_pos hboth]
      rfl
    · rw [if_neg hboth, if_neg hboth, ← hm]

/-! ### The end of a measurement (R161) -/

theorem exec_rngEnd {s : State} (hf : s.fault = none) : exec .rngEnd s = rngEnd s := unlessFaulted_of_none hf rngEnd

theorem rngEnd_of_not_exiting {s : State} (h : s.meas ≠ .exiting) : rngEnd s = .refused .notExiting := by
  unfold rngEnd
  cases hm : s.meas with
  | exiting => exact absurd hm h
  | noMeas => rfl
  | inLoop start => rfl

theorem rngEnd_of_exiting {s : State} (h : s.meas = .exiting) : rngEnd s = .next (endMeasure s) := by
  rw [rngEnd, h]

theorem endMeasure_of_quiet {s : State} (hq : Quiet s) : endMeasure s =
    (((setEdgeMode .off s).setRng { s.rng with state := .idle }).setMeas .noMeas).setRes
      (rangingResult s.rng.trigTime s.rng.echoTime) := by
  have hq' : Quiet ((setEdgeMode .off s).setRng { s.rng with state := .idle }) :=
    (hq.setEdgeMode .off).congr rfl rfl rfl rfl rfl
  rw [endMeasure_eq, dispatch_of_quiet hq']

/-- Settles O35: the end in a quiet state, and its result by the two timestamps. -/
theorem rngEndReturnsResult : Obligations.RngEndReturnsResult := by
  unfold Obligations.RngEndReturnsResult
  intro s hf
  rw [exec_rngEnd hf]
  refine ⟨rngEnd_of_not_exiting, fun hq hm => ?_⟩
  rw [rngEnd_of_exiting hm, endMeasure_of_quiet hq]
  cases htrig : s.rng.trigTime with
  | none => rfl
  | some tt =>
    cases hecho : s.rng.echoTime with
    | none => rfl
    | some et => rfl

/-! ### The dispatcher's commands (44_host.md R213 to R217) -/

theorem setRes_of_res {s : State} {r : Res} (h : s.res = r) : s.setRes r = s := by
  rw [← h]
  rfl

theorem advance_cfg (n : Nat) (s : State) : (advance n s).cfg = s.cfg := (advance_frame n s).cfg

/-- A command's word, in a machine with a turret. -/
theorem exec_dispCmd_of_turret {s : State} {tu : Turret} {a code : Byte} {r : Bool} {c : Half} (hf : s.fault = none)
    (ht : s.tur = some tu) (hc : c = code.setWidth 16) : exec (.dispCmd (a.setWidth 16) c (if r then 1 else 0)) s =
      andThen (dispatchCommand code r tu s) fun s1 => .next (s1.setRes .unit) := by
  subst hc
  exact exec_commandWord_of_turret a code r hf ht

/-- The store of a width as a plain update (R129, R130). -/
def stored (h : Nat) (sl : Slot) (ticks : Nat) (s : State) : State :=
  (setSlot h { sl with ticks := BitVec.ofNat 16 ticks } s).setRes .unit

theorem stored_quiet {s : State} (hq : Quiet s) (h : Nat) (sl : Slot) (ticks : Nat) : Quiet (stored h sl ticks s) :=
  hq.congr rfl rfl rfl rfl rfl

theorem stored_slot {s : State} {h : Nat} {sl x : Slot} (hx : s.srv.slots[h]? = some x) (ticks : Nat) :
    (stored h sl ticks s).srv.slots[h]? = some { sl with ticks := BitVec.ofNat 16 ticks } :=
  List.getElem?_set_self (lt_srvCount hx)

theorem writeAngle_of_attached {s : State} {h : Nat} {sl : Slot} (v : Nat) (hq : Quiet s)
    (hs : s.srv.slots[h]? = some sl) (ha : sl.attached = true) :
    writeAngle h v s = .next (stored h sl (widthTicks s.cfg sl (angleToUs sl v)) s) := by
  rw [writeAngle, withHandle_of_slot _ hs ha, storeTicks_of_quiet _ _ _ hq]
  rfl

theorem writeWidth_of_attached {s : State} {h : Nat} {sl : Slot} (us : Nat) (hq : Quiet s)
    (hs : s.srv.slots[h]? = some sl) (ha : sl.attached = true) :
    writeWidth h us s = .next (stored h sl (widthTicks s.cfg sl us) s) := by
  rw [writeWidth, withHandle_of_slot _ hs ha, storeTicks_of_quiet _ _ _ hq]
  rfl

theorem movePitch_of_attached {s : State} {tu : Turret} {sl : Slot} (new : Nat) (hq : Quiet s)
    (hs : s.srv.slots[tu.pit]? = some sl) (ha : sl.attached = true) : movePitch new tu s =
      .next (advance (s.cfg.pitchSettleMs * 1000 * s.cfg.cycPerUs) (stored tu.pit sl
        (widthTicks s.cfg sl (angleToUs sl new)) (s.setTur (some { tu with pitch := new })))) := by
  have hq' : Quiet (s.setTur (some { tu with pitch := new })) := hq.congr rfl rfl rfl rfl rfl
  rw [movePitch, writeAngle_of_attached new hq' hs ha]
  rfl

theorem writeAngle_of_detached {s : State} {h : Nat} {sl : Slot} (v : Nat) (hs : s.srv.slots[h]? = some sl)
    (ha : sl.attached = false) : writeAngle h v s = .refused .wrongTypestate := by
  have hne : sl.attached ≠ true := by rw [ha]; decide
  rw [writeAngle, withHandle_wrong _ hs hne]

theorem movePitch_of_detached {s : State} {tu : Turret} {sl : Slot} (new : Nat)
    (hs : s.srv.slots[tu.pit]? = some sl) (ha : sl.attached = false) :
    movePitch new tu s = .refused .wrongTypestate := by
  rw [movePitch, writeAngle_of_detached (s := s.setTur (some { tu with pitch := new })) _ hs ha, andThen_refused]

/-- `RES` is unit already when the delay after a store ends. -/
theorem setRes_advance_stored (n h : Nat) (sl : Slot) (ticks : Nat) (s : State) :
    (advance n (stored h sl ticks s)).setRes .unit = advance n (stored h sl ticks s) :=
  setRes_of_res (advance_frame n _).res

/-- Settles O51: at its bound a pitch move does nothing; else it stores the new angle's width and waits, or is
refused with its slot. -/
theorem dispatchUpAndDown : Obligations.DispatchUpAndDown := by
  unfold Obligations.DispatchUpAndDown
  intro s a r tu hf ht word cycles written
  have hup : exec (word 0x52) s = andThen (dispatchUp tu s) fun s1 => .next (s1.setRes .unit) :=
    exec_dispCmd_of_turret (code := irUp) hf ht (by decide)
  have hdown : exec (word 0x18) s = andThen (dispatchDown tu s) fun s1 => .next (s1.setRes .unit) :=
    exec_dispCmd_of_turret (code := irDown) hf ht (by decide)
  rw [hup, hdown]
  refine ⟨fun hmin => ?upBound, fun hmax => ?downBound, fun sl hs => ⟨fun ha => ⟨fun hmin => ?upDetached,
    fun hmax => ?downDetached⟩, fun hq ha => ⟨fun hmin => ?upMove, fun hmax => ?downMove⟩⟩⟩
  case upBound =>
    rw [dispatchUp, if_neg (by omega)]
    rfl
  case downBound =>
    rw [dispatchDown, if_neg (by omega)]
    rfl
  case upDetached => rw [dispatchUp, if_pos hmin, movePitch_of_detached _ hs ha, andThen_refused]
  case downDetached => rw [dispatchDown, if_pos hmax, movePitch_of_detached _ hs ha, andThen_refused]
  case upMove =>
    rw [dispatchUp, if_pos hmin, movePitch_of_attached _ hq hs ha, andThen_next', setRes_advance_stored]
    rfl
  case downMove =>
    rw [dispatchDown, if_pos hmax, movePitch_of_attached _ hq hs ha, andThen_next', setRes_advance_stored]
    rfl

/-- A pulse: the width, its time, and the centre width, stored in the slot that stayed where it was. -/
theorem pulseServo_of_attached {s : State} {h : Nat} {sl : Slot} (us ms : Nat) (hq : Quiet s)
    (hs : s.srv.slots[h]? = some sl) (ha : sl.attached = true) : pulseServo h us ms s =
      .next (stored h sl (widthTicks s.cfg sl defaultPulseUs) (advance (ms * 1000 * s.cfg.cycPerUs)
        (stored h sl (widthTicks s.cfg sl us) s))) := by
  have hq' := advance_quiet (ms * 1000 * s.cfg.cycPerUs) (stored_quiet hq h sl (widthTicks s.cfg sl us))
  have hslot : (advance (ms * 1000 * s.cfg.cycPerUs) (stored h sl (widthTicks s.cfg sl us) s)).srv.slots[h]? =
      some { sl with ticks := BitVec.ofNat 16 (widthTicks s.cfg sl us) } := by
    rw [(advance_frame _ _).slots]
    exact stored_slot hs _
  have hcfg : (advance (ms * 1000 * s.cfg.cycPerUs) (stored h sl (widthTicks s.cfg sl us) s)).cfg = s.cfg :=
    advance_cfg _ _
  have hback := writeWidth_of_attached defaultPulseUs hq' hslot ha
  rw [hcfg] at hback
  rw [pulseServo, writeWidth_of_attached us hq hs ha, andThen_next']
  exact hback

theorem pulseServo_of_detached {s : State} {h : Nat} {sl : Slot} (us ms : Nat)
    (hs : s.srv.slots[h]? = some sl) (ha : sl.attached = false) :
    pulseServo h us ms s = .refused .wrongTypestate := by
  have hne : sl.attached ≠ true := by rw [ha]; decide
  rw [pulseServo, writeWidth, withHandle_wrong _ hs hne, andThen_refused]

/-- Settles O52: each of the four commands is its pulse, or refused with its slot. -/
theorem dispatchPulsesYawAndRoll : Obligations.DispatchPulsesYawAndRoll := by
  unfold Obligations.DispatchPulsesYawAndRoll
  intro s a r tu hf ht stored' pulsed word
  have hpulse : ∀ (code : Byte) (c : Half) (rep : Bool) (h us ms : Nat), c = code.setWidth 16 →
      dispatchCommand code rep tu s = pulseServo h us ms s → ∀ sl, s.srv.slots[h]? = some sl →
      (sl.attached = false → exec (word c rep) s = .refused .wrongTypestate) ∧
      (Quiet s → sl.attached = true → exec (word c rep) s = .next (pulsed h sl us ms)) := by
    intro code c rep h us ms hc hcommand sl hs
    have hexec : exec (word c rep) s = andThen (pulseServo h us ms s) fun s1 => .next (s1.setRes .unit) := by
      rw [← hcommand]
      exact exec_dispCmd_of_turret hf ht hc
    rw [hexec]
    refine ⟨fun ha => ?_, fun hq ha => ?_⟩
    · rw [pulseServo_of_detached _ _ hs ha, andThen_refused]
    · rw [pulseServo_of_attached _ _ hq hs ha]
      rfl
  refine ⟨fun sl hs => ⟨fun ha => ⟨?_, ?_⟩, fun hq ha => ⟨?_, ?_⟩⟩,
    fun sl hs => ⟨fun ha => ⟨?_, ?_⟩, fun hq ha => ⟨?_, ?_⟩⟩⟩
  · exact (hpulse irLeft _ r _ _ _ (by decide) rfl sl hs).1 ha
  · exact (hpulse irRight _ r _ _ _ (by decide) rfl sl hs).1 ha
  · exact (hpulse irLeft _ r _ _ _ (by decide) rfl sl hs).2 hq ha
  · exact (hpulse irRight _ r _ _ _ (by decide) rfl sl hs).2 hq ha
  · exact (hpulse irOk _ false _ _ _ (by decide) rfl sl hs).1 ha
  · exact (hpulse irStar _ false _ _ _ (by decide) rfl sl hs).1 ha
  · exact (hpulse irOk _ false _ _ _ (by decide) rfl sl hs).2 hq ha
  · exact (hpulse irStar _ false _ _ _ (by decide) rfl sl hs).2 hq ha

end Sys2Proof.Machine
end

section
/-! The build of the turret (44_host.md R220): how far the three registrations come, and what they leave. -/

namespace Sys2Proof.Machine

/-! ### Servos registered and attached one after another -/

/-- The slot of a servo that is registered and attached with the default limits (R123, R125). -/
def builtSlot (c : Config) (pin : Byte) : Slot := { newSlot c pin with attached := true }

/-- T1 after servos on the pins `ps` were attached: armed by the first, when none was attached before (R127). -/
def wiredT1 (ps : List Byte) (s : State) : Timer1 :=
  if ps = [] ∨ active s = true then s.t1
  else { s.t1 with prescale := s.cfg.srvPrescale, cnt := 0, pend := false, ie := true }

/-- `s` with servos on the pins `ps` registered and attached in order: their slots, T1 armed when one was attached
and none had been, the pins given and the result given. -/
def wired (ps : List Byte) (s : State) (pins : Vector Pin 256) (res : Res) : State :=
  { s with
    srv := { s.srv with slots := s.srv.slots ++ ps.map (builtSlot s.cfg) }
    t1 := wiredT1 ps s
    pins := pins
    res := res }

/-- The pins of the attached servos are outputs, and every level is kept. -/
def WiredPins (ps : List Byte) (s : State) (pins : Vector Pin 256) : Prop :=
  ∀ q, getPin (s.setPins pins) q =
    { dir := if q ∈ ps then .output else (getPin s q).dir, level := (getPin s q).level }

theorem wired_nil (s : State) : wired [] s s.pins s.res = s := by
  have hslots : s.srv.slots ++ [].map (builtSlot s.cfg) = s.srv.slots := by simp
  have ht1 : wiredT1 [] s = s.t1 := if_pos (.inl rfl)
  rw [wired, hslots, ht1]

/-- A further attach arms nothing when a slot was attached before it. -/
theorem wiredT1_append (ps : List Byte) (pin : Byte) (s : State) : wiredT1 (ps ++ [pin]) s =
    if (active s || !ps.isEmpty) = true then wiredT1 ps s
    else { wiredT1 ps s with prescale := s.cfg.srvPrescale, cnt := 0, pend := false, ie := true } := by
  unfold wiredT1
  cases ps <;> cases active s <;> simp

/-- The first of several attaches arms T1 exactly when no slot was attached before. -/
theorem wiredT1_cons (pin : Byte) (ps : List Byte) (s : State) : wiredT1 (pin :: ps) s =
    if active s = true then s.t1
    else { s.t1 with prescale := s.cfg.srvPrescale, cnt := 0, pend := false, ie := true } := by
  simp [wiredT1]

theorem wiredPins_nil (s : State) : WiredPins [] s s.pins := fun q => by simp

theorem active_wired (ps : List Byte) (s : State) (pins : Vector Pin 256) (res : Res) :
    active (wired ps s pins res) = (active s || !ps.isEmpty) := by
  have hany : (ps.map (builtSlot s.cfg)).any (·.attached) = !ps.isEmpty := by
    cases ps <;> simp [builtSlot]
  show (s.srv.slots ++ ps.map (builtSlot s.cfg)).any (·.attached) = _
  rw [List.any_append, hany]
  rfl

theorem srvCount_wired (ps : List Byte) (s : State) (pins : Vector Pin 256) (res : Res) :
    (wired ps s pins res).srvCount = s.srv.slots.length + ps.length := by
  simp [wired, State.srvCount]

/-- With room one servo more is registered, with the next handle, and attached. -/
theorem buildServo_wired_of_room {ps : List Byte} {s : State} {pins : Vector Pin 256} (pin : Byte) (res : Res)
    (ho : s.srv.owned = true) (hn : s.srv.slots.length + ps.length < 12) (hp : WiredPins ps s pins) :
    ∃ pins', buildServo pin (wired ps s pins res) =
        (wired (ps ++ [pin]) s pins' .unit, some (s.srv.slots.length + ps.length)) ∧
      WiredPins (ps ++ [pin]) s pins' := by
  have hcount := srvCount_wired ps s pins res
  obtain ⟨_, -, ⟨ho', -⟩ | ⟨-, hc, -⟩⟩ | ⟨-, -, pins', hb, hpins'⟩ := buildServo_cases pin (wired ps s pins res)
  · rw [show (wired ps s pins res).srv.owned = true from ho] at ho'
    cases ho'
  · rw [hcount, maxServos] at hc
    omega
  refine ⟨pins', ?_, fun q => ?_⟩
  · rw [hb, hcount, active_wired]
    simp [wired, wiredT1_append, builtSlot, State.setSrv, State.setPins, State.setT1, State.setRes]
  · have hq : getPin ((wired ps s pins res).setPins pins') q = getPin (s.setPins pins') q := rfl
    have hw : getPin (wired ps s pins res) q = getPin (s.setPins pins) q := rfl
    rw [← hq, hpins' q, hw, hp q]
    by_cases hpq : pin = q
    · simp [hpq]
    · have hqp : q ≠ pin := Ne.symm hpq
      simp [hpq, hqp]

/-- With twelve slots the registration leaves its error, and nothing is attached. -/
theorem buildServo_wired_of_full {ps : List Byte} {s : State} (pins : Vector Pin 256) (pin : Byte) (res : Res)
    (ho : s.srv.owned = true) (hn : s.srv.slots.length + ps.length = 12) :
    buildServo pin (wired ps s pins res) = (wired ps s pins (.err errTooManyServos), none) := by
  have hcount := srvCount_wired ps s pins res
  obtain ⟨_, hb, ⟨ho', -⟩ | ⟨-, -, rfl⟩⟩ | ⟨-, hc, -⟩ := buildServo_cases pin (wired ps s pins res)
  · rw [show (wired ps s pins res).srv.owned = true from ho] at ho'
    cases ho'
  · exact hb
  · rw [hcount, maxServos] at hc
    exact absurd hn hc

theorem buildServo_of_not_owned {s : State} (pin : Byte) (ho : s.srv.owned = false) :
    buildServo pin s = (s.setRes (.err errNotInitialized), none) := by
  rw [buildServo, registerServo_of_not_owned pin ho]
  rfl

/-! ### The build -/

section Build
variable {yaw pitch roll trig echo : Byte} {temp : Half} {s : State}

theorem exec_turBuild : exec (.turBuild yaw pitch roll trig echo temp) s =
    execTurBuild yaw pitch roll trig echo temp s := rfl

theorem execTurBuild_of_built (hf : s.fault = none) (ht : s.tur.isSome = true) :
    execTurBuild yaw pitch roll trig echo temp s = .refused .alreadyBuilt := by
  rw [execTurBuild, unlessFaulted_of_none hf, if_pos ht]

theorem execTurBuild_of_refusal {r : Refusal} (hf : s.fault = none) (ht : s.tur = none)
    (hr : driverRefusal trig temp echo s = some r) :
    execTurBuild yaw pitch roll trig echo temp s = .refused r := by
  simp [execTurBuild, unlessFaulted_of_none hf, ht, hr]

theorem execTurBuild_of_none (hf : s.fault = none) (ht : s.tur = none)
    (hr : driverRefusal trig temp echo s = none) :
    execTurBuild yaw pitch roll trig echo temp s = .next (buildTurret yaw pitch roll trig echo temp s) := by
  simp [execTurBuild, unlessFaulted_of_none hf, ht, hr]

/-- A build that runs out of slots stops after the servos that had one. -/
theorem buildTurret_of_full (ho : s.srv.owned = true) (hle : s.srv.slots.length ≤ 12)
    (hlt : 12 < s.srv.slots.length + 3) : ∃ pins, buildTurret yaw pitch roll trig echo temp s =
      wired ([yaw, pitch].take (12 - s.srv.slots.length)) s pins (.err errTooManyServos) ∧
      WiredPins ([yaw, pitch].take (12 - s.srv.slots.length)) s pins := by
  have hnil := wired_nil s
  by_cases h12 : s.srv.slots.length = 12
  · have h1 := buildServo_wired_of_full (ps := []) s.pins yaw s.res ho h12
    rw [hnil] at h1
    have htake : [yaw, pitch].take (12 - s.srv.slots.length) = [] := by simp [h12]
    rw [htake]
    exact ⟨s.pins, by simp only [buildTurret, h1], wiredPins_nil s⟩
  obtain ⟨pins1, h1, hp1⟩ := buildServo_wired_of_room (ps := []) yaw s.res ho
    (by simp only [List.length_nil]; omega) (wiredPins_nil s)
  rw [hnil] at h1
  by_cases h11 : s.srv.slots.length = 11
  · have h2 := buildServo_wired_of_full (ps := [yaw]) pins1 pitch .unit ho
      (by simp only [List.length_cons, List.length_nil]; omega)
    have htake : [yaw, pitch].take (12 - s.srv.slots.length) = [yaw] := by simp [h11]
    rw [htake]
    exact ⟨pins1, by simp only [buildTurret, h1, List.nil_append, h2], hp1⟩
  obtain ⟨pins2, h2, hp2⟩ := buildServo_wired_of_room (ps := [yaw]) pitch .unit ho
    (by simp only [List.length_cons, List.length_nil]; omega) hp1
  have h3 := buildServo_wired_of_full (ps := [yaw, pitch]) pins2 roll .unit ho
    (by simp only [List.length_cons, List.length_nil]; omega)
  have h10 : s.srv.slots.length = 10 := by omega
  have htake : [yaw, pitch].take (12 - s.srv.slots.length) = [yaw, pitch] := by simp [h10]
  rw [htake]
  exact ⟨pins2, by simp only [buildTurret, h1, List.nil_append, h2, List.cons_append, h3], hp2⟩

/-- A build with three free slots completes. -/
theorem buildTurret_of_room (ho : s.srv.owned = true) (hn : s.srv.slots.length + 3 ≤ 12) :
    ∃ pins, WiredPins [yaw, pitch, roll] s pins ∧ buildTurret yaw pitch roll trig echo temp s =
      ((constructDriver trig temp echo (wired [yaw, pitch, roll] s pins .unit)).setTur
        (some { pitch := s.cfg.pitchInit, yaw := s.srv.slots.length, pit := s.srv.slots.length + 1,
                roll := s.srv.slots.length + 2 })).setRes .unit := by
  obtain ⟨pins1, h1, hp1⟩ := buildServo_wired_of_room (ps := []) yaw s.res ho
    (by simp only [List.length_nil]; omega) (wiredPins_nil s)
  rw [wired_nil s] at h1
  obtain ⟨pins2, h2, hp2⟩ := buildServo_wired_of_room (ps := [yaw]) pitch .unit ho
    (by simp only [List.length_cons, List.length_nil]; omega) hp1
  obtain ⟨pins3, h3, hp3⟩ := buildServo_wired_of_room (ps := [yaw, pitch]) roll .unit ho
    (by simp only [List.length_cons, List.length_nil]; omega) hp2
  exact ⟨pins3, hp3, by simp only [buildTurret, h1, List.nil_append, h2, List.cons_append, h3]; rfl⟩

end Build

/-- Settles O54: the refusals in order, the stop at the first registration, at a later one, and the whole build. -/
theorem turBuildWiresTurret : Obligations.TurBuildWiresTurret := by
  unfold Obligations.TurBuildWiresTurret
  intro s yaw pitch roll trig echo temp hf word slot sound
  refine ⟨fun ht => ?built, fun ht hd => execTurBuild_of_refusal hf ht (driverRefusal_of_driver hd),
    fun ht hd hp => execTurBuild_of_refusal hf ht (driverRefusal_of_samePin hd hp),
    fun ht hd hp hs => execTurBuild_of_refusal hf ht (driverRefusal_of_badTemperature hd hp hs),
    fun ht hd hp hs => ?builds⟩
  case built => exact execTurBuild_of_built hf ht
  case builds =>
    have hexec : exec word s = .next (buildTurret yaw pitch roll trig echo temp s) :=
      execTurBuild_of_none hf ht (driverRefusal_eq_none hd hp hs)
    rw [hexec]
    refine ⟨fun ho => ?notOwned, fun ho hle hlt => ?full, fun ho hn => ?room⟩
    case notOwned =>
      have hbuild : buildTurret yaw pitch roll trig echo temp s = s.setRes (.err errNotInitialized) := by
        simp only [buildTurret, buildServo_of_not_owned yaw ho]
      rw [hbuild]
      rfl
    case full =>
      obtain ⟨pins, hbuild, hpins⟩ := buildTurret_of_full (yaw := yaw) (pitch := pitch) (roll := roll) (trig := trig)
        (echo := echo) (temp := temp) ho hle hlt
      exact ⟨pins, by rw [hbuild]; rfl, hpins⟩
    case room =>
      obtain ⟨pins, hpins, hbuild⟩ := buildTurret_of_room (yaw := yaw) (pitch := pitch) (roll := roll) (trig := trig)
        (echo := echo) (temp := temp) ho hn
      obtain ⟨pins', hdriver, hpins'⟩ := constructDriver_eq trig temp echo (wired [yaw, pitch, roll] s pins .unit)
      refine ⟨pins', ?_, fun p => (hpins' p).trans ?_⟩
      · rw [hbuild, hdriver]
        simp only [wired, wiredT1_cons, State.setRng, State.setPins, State.setTur, State.setRes]
        rfl
      · have hw : getPin (wired [yaw, pitch, roll] s pins .unit) p = getPin (s.setPins pins) p := rfl
        rw [hw, hpins p]
        by_cases he : p = echo
        · simp [he]
        · by_cases ht : p = trig <;> simp [he, ht]

end Sys2Proof.Machine
end

section
/-! Ticks (70_reset_and_hazards.md R281): the tick that waits and the ticks counted make a total that taking
interrupts keeps, so the matches of T0 become ticks of the Clock, one by one or merged into one. -/

namespace Sys2Proof.Machine

/-! ### What an interrupt leaves of the Clock and T0 -/

theorem tickBody_t0 (s : State) : (tickBody s).t0 = s.t0 := by
  rw [tickBody_eq]
  split <;> rfl

theorem edgeBody_clock (s : State) : (edgeBody s).clk = s.clk ∧ (edgeBody s).t0 = s.t0 := by
  unfold edgeBody
  dsimp only
  split <;> exact ⟨rfl, rfl⟩

/-- The handlers of the servo timer and the edge unit leave the Clock and T0 alone. -/
theorem takeInterrupt_clock {src : Source} (h : src ≠ .tick) (s : State) :
    (takeInterrupt src s).clk = s.clk ∧ (takeInterrupt src s).t0 = s.t0 := by
  cases src with
  | tick => exact absurd rfl h
  | servo =>
    obtain ⟨h0, -, -, hk, -⟩ := isrBody_keeps (enter .servo s)
    exact ⟨hk, h0⟩
  | edge => exact edgeBody_clock (enter .edge s)

theorem takeInterrupt_cfg (src : Source) (s : State) : (takeInterrupt src s).cfg = s.cfg :=
  (runBody_frame src (enter src s)).cfg.trans (by cases src <;> rfl)

/-- An interrupt clears at most T0's flag. -/
theorem takeInterrupt_t0 (src : Source) (s : State) :
    (takeInterrupt src s).t0 = { s.t0 with pend := (takeInterrupt src s).t0.pend } := by
  by_cases h : src = .tick
  · subst h
    show (tickBody (enter .tick s)).t0 = { s.t0 with pend := (tickBody (enter .tick s)).t0.pend }
    rw [tickBody_t0]
    rfl
  · rw [(takeInterrupt_clock h s).2]

theorem dispatch_t0 (s : State) : (dispatch s).t0 = { s.t0 with pend := (dispatch s).t0.pend } :=
  dispatch_keeps (P := fun u => u.t0 = { s.t0 with pend := u.t0.pend })
    (fun src u _ _ h => by rw [takeInterrupt_t0, h]) rfl

/-- With no tick waiting `DISPATCH()` leaves the Clock alone. -/
theorem dispatch_clk_of_no_tick {s : State} (h : s.t0.pend = false) :
    (dispatch s).clk = s.clk ∧ (dispatch s).t0.pend = false := by
  refine dispatch_keeps (P := fun u => u.clk = s.clk ∧ u.t0.pend = false) (fun src u _ hr hu => ?_) ⟨rfl, h⟩
  have hsrc : src ≠ .tick := by
    rintro rfl
    simp [requesting, hu.2] at hr
  obtain ⟨hk, h0⟩ := takeInterrupt_clock hsrc u
  rw [hk, h0]
  exact hu

/-! ### The ticks counted and the tick waiting -/

/-- What `now()` returns, and one more for a tick that waits. -/
def tickTotal (s : State) : Quad := nowValue s + if s.t0.pend then 1 else 0

theorem tickTotal_of_no_tick {s : State} (h : s.t0.pend = false) : tickTotal s = nowValue s := by
  simp [tickTotal, h]

theorem tickTotal_takeInterrupt {src : Source} {s : State} (hp : PartInv s) (hr : requesting s src = true) :
    tickTotal (takeInterrupt src s) = tickTotal s ∧ PartInv (takeInterrupt src s) := by
  by_cases h : src = .tick
  · subst h
    obtain ⟨hnow, hinv⟩ := nowValue_tickBody (s := enter .tick s) ⟨hp.threshold, hp.part⟩
    have hpend : s.t0.pend = true := requesting_pending hr
    have hclear : (takeInterrupt .tick s).t0.pend = false := congrArg Timer0.pend (tickBody_t0 (enter .tick s))
    refine ⟨?_, hinv.threshold, hinv.part⟩
    rw [tickTotal_of_no_tick hclear, tickTotal, hpend]
    exact hnow
  · obtain ⟨hk, h0⟩ := takeInterrupt_clock h s
    have hcfg : (takeInterrupt src s).cfg = s.cfg := takeInterrupt_cfg src s
    refine ⟨by rw [tickTotal, tickTotal, nowValue, nowValue, hk, h0], ?_, ?_⟩
    · rw [hcfg]; exact hp.threshold
    · rw [hcfg, hk]; exact hp.part

theorem tickTotal_dispatch {s : State} (hp : PartInv s) :
    tickTotal (dispatch s) = tickTotal s ∧ PartInv (dispatch s) :=
  dispatch_keeps (P := fun u => tickTotal u = tickTotal s ∧ PartInv u)
    (fun _ _ _ hr h => have ht := tickTotal_takeInterrupt h.2 hr; ⟨ht.1.trans h.1, ht.2⟩) ⟨rfl, hp⟩

/-- A quiet machine with interrupts on and T0's interrupt enabled has no tick waiting. -/
theorem Quiet.no_tick {s : State} (h : Quiet s) (hI : s.cpuI = true) (hf : s.fault = none) (hie : s.t0.ie = true) :
    s.t0.pend = false := by
  have ht : requesting s .tick = false := h hI hf .tick
  simpa [requesting, hie] using ht

/-- With interrupts on `DISPATCH()` turns the waiting tick into a count. -/
theorem nowValue_dispatch {s : State} (hp : PartInv s) (hI : s.cpuI = true) (hf : s.fault = none)
    (hie : s.t0.ie = true) :
    nowValue (dispatch s) = tickTotal s ∧ PartInv (dispatch s) ∧ (dispatch s).t0.pend = false := by
  have hfr := dispatch_frame s
  have hpend := (dispatch_quiet s).no_tick (hfr.cpuI.trans hI) (hfr.fault.trans hf) (hfr.t0ie.trans hie)
  obtain ⟨htotal, hp'⟩ := tickTotal_dispatch hp
  exact ⟨(tickTotal_of_no_tick hpend).symm.trans htotal, hp', hpend⟩

/-! ### The matches of T0 -/

theorem countCycle_t0 (s : State) : (countCycle s).t0 = s.t0.clock (s.t + 1) := by
  rw [countCycle_eq]
  rfl

theorem countCycle_clk (s : State) : (countCycle s).clk = s.clk := by
  rw [countCycle_eq]
  rfl

theorem t0MatchesNext_eq (s : State) :
    t0MatchesNext s = (ticksAt s.t0.run s.t0.prescale (s.t + 1) && s.t0.cnt == s.t0.cmp) := rfl

/-- A match sets T0's flag, and nothing in a cycle clears it. -/
theorem countCycle_pend (s : State) : (countCycle s).t0.pend = (s.t0.pend || t0MatchesNext s) := by
  rw [countCycle_t0, Timer0.clock_eq, t0MatchesNext_eq]
  by_cases ht : ticksAt s.t0.run s.t0.prescale (s.t + 1) = true
  · by_cases hm : s.t0.cnt = s.t0.cmp
    · rw [if_pos ht, Timer0.count_of_match hm, ht, hm]
      simp
    · rw [if_pos ht, Timer0.count_of_no_match hm]
      simp [hm]
  · rw [if_neg ht]
    simp [ht]

theorem PartInv.countCycle {s : State} (h : PartInv s) : PartInv (countCycle s) where
  threshold := by rw [(countCycle_frame s).cfg]; exact h.threshold
  part := by rw [(countCycle_frame s).cfg, countCycle_clk]; exact h.part

/-- A cycle with interrupts on and no tick waiting counts a tick exactly at a match. -/
theorem nowValue_cycle {s : State} (hp : PartInv s) (hI : s.cpuI = true) (hf : s.fault = none)
    (hie : s.t0.ie = true) (hpend : s.t0.pend = false) :
    nowValue (cycle s) = nowValue s + (if t0MatchesNext s then 1 else 0) ∧ PartInv (cycle s) ∧
      (cycle s).t0.pend = false := by
  have hfr := countCycle_frame s
  obtain ⟨hnow, hp', hpend'⟩ :=
    nowValue_dispatch hp.countCycle (hfr.cpuI.trans hI) (hfr.fault.trans hf) (hfr.t0ie.trans hie)
  refine ⟨hnow.trans ?_, hp', hpend'⟩
  rw [tickTotal, nowValue, countCycle_clk, countCycle_pend, hpend, Bool.false_or]
  rfl

/-- With interrupts on every match is a tick. -/
theorem nowValue_advance (n : Nat) {s : State} (hp : PartInv s) (hI : s.cpuI = true) (hf : s.fault = none)
    (hie : s.t0.ie = true) (hpend : s.t0.pend = false) :
    nowValue (advance n s) = nowValue s + BitVec.ofNat 32 (t0Matches n s) := by
  induction n generalizing s with
  | zero => simp [advance, t0Matches]
  | succ n ih =>
    have hfr := cycle_frame s
    obtain ⟨hnow, hp', hpend'⟩ := nowValue_cycle hp hI hf hie hpend
    have hrest := ih hp' (hfr.cpuI.trans hI) (hfr.fault.trans hf) (hfr.t0ie.trans hie) hpend'
    rw [advance, hrest, hnow, t0Matches, BitVec.ofNat_add, BitVec.add_assoc]
    split <;> rfl

/-- With interrupts off the matches only leave T0's flag. -/
theorem advance_pend_of_masked (n : Nat) {s : State} (hI : s.cpuI = false) :
    (advance n s).t0.pend = (s.t0.pend || decide (1 ≤ t0Matches n s)) := by
  induction n generalizing s with
  | zero => simp [advance, t0Matches]
  | succ n ih =>
    rw [advance, cycle_of_masked hI, ih ((countCycle_frame s).cpuI.trans hI), countCycle_pend, t0Matches,
      cycle_of_masked hI]
    cases t0MatchesNext s <;> simp

theorem advance_clk_of_masked (n : Nat) {s : State} (hI : s.cpuI = false) : (advance n s).clk = s.clk := by
  rw [advance_of_masked n hI]
  rfl

/-- A match at a count of the next cycle, and the counter after it. -/
theorem cycle_t0 (s : State) : (cycle s).t0 = { s.t0.clock (s.t + 1) with pend := (cycle s).t0.pend } := by
  rw [cycle_eq, dispatch_t0, countCycle_t0]

/-- R181, R182: the matches from the counter and the counts. -/
theorem t0Matches_eq (n : Nat) {s : State} (hle : s.t0.cnt.toNat ≤ s.t0.cmp.toNat) : t0Matches n s =
    (s.t0.cnt.toNat + countsIn s.t0.run s.t0.prescale s.t n) / (s.t0.cmp.toNat + 1) := by
  induction n generalizing s with
  | zero =>
    rw [countsIn_zero, Nat.add_zero, Nat.div_eq_of_lt (by omega)]
    rfl
  | succ n ih =>
    have hfr := cycle_frame s
    have hcnt : (cycle s).t0.cnt = (s.t0.clock (s.t + 1)).cnt := by rw [cycle_t0]
    have hrest := ih (s := cycle s)
    rw [hfr.t0run, hfr.t0prescale, hfr.t0cmp, hcnt, cycle_t, Timer0.clock_eq] at hrest
    rw [t0Matches, countsIn_succ, t0MatchesNext_eq]
    by_cases ht : ticksAt s.t0.run s.t0.prescale (s.t + 1) = true
    · rw [if_pos ht] at hrest
      by_cases hm : s.t0.cnt = s.t0.cmp
      · rw [Timer0.count_of_match hm] at hrest
        have hsum : ∀ k, s.t0.cnt.toNat + (1 + k) = s.t0.cmp.toNat + 1 + ((0 : Byte).toNat + k) := fun k => by
          rw [hm]
          simp
          omega
        rw [hrest (Nat.zero_le _), if_pos ht, hsum, Nat.add_div_left _ (Nat.succ_pos _)]
        simp [ht, hm, Nat.add_comm]
      · have hne : s.t0.cnt.toNat ≠ s.t0.cmp.toNat := fun e => hm (BitVec.eq_of_toNat_eq e)
        have hsucc : (s.t0.cnt + 1).toNat = s.t0.cnt.toNat + 1 := by bv_omega
        rw [Timer0.count_of_no_match hm] at hrest
        rw [hrest (by simp only [hsucc]; omega), if_pos ht]
        simp only [hsucc, Nat.add_assoc]
        simp [hm]
    · rw [if_neg ht] at hrest
      rw [hrest hle, if_neg ht]
      simp [ht]

/-! ### Interrupts on again -/

theorem exec_irqOn {s : State} (hf : s.fault = none) : exec .irqOn s = .next (s.setCpuI true) :=
  unlessFaulted_of_none hf fun u => .next (u.setCpuI true)

/-- Settles O16: with interrupts on each match is counted in its cycle; with them off the flag is all that is
left of the matches, and the first `DISPATCH()` makes one tick of it. -/
theorem lostTicksMergeIntoOne : Obligations.LostTicksMergeIntoOne := by
  unfold Obligations.LostTicksMergeIntoOne
  refine ⟨fun n s hf hie hthr hpart => ⟨fun hI hq => ?on, fun hI hm => ?merged, fun hI hm hp => ?none⟩,
    fun n s hle => t0Matches_eq n hle⟩
  case on => exact nowValue_advance n ⟨hthr, hpart⟩ hI hf hie (hq.no_tick hI hf hie)
  case merged =>
    have hfr := advance_frame n s
    have hclk := advance_clk_of_masked n hI
    have hpend : (advance n s).t0.pend = true := by simp [advance_pend_of_masked n hI, hm]
    have hinv : PartInv ((advance n s).setCpuI true) := by
      refine ⟨?_, ?_⟩
      · exact hfr.cfg ▸ hthr
      · show (advance n s).clk.part.toNat ≤ (advance n s).cfg.foldThreshold
        rw [hfr.cfg, hclk]
        exact hpart
    obtain ⟨hnow, -⟩ := nowValue_dispatch hinv rfl (hfr.fault.trans hf) (hfr.t0ie.trans hie)
    refine ⟨hclk, _, exec_irqOn (hfr.fault.trans hf), hnow.trans ?_⟩
    simp only [tickTotal, nowValue, State.setCpuI_t0, State.setCpuI_clk, hpend, hclk, if_true]
  case none =>
    have hclk := advance_clk_of_masked n hI
    have hpend : (advance n s).t0.pend = false := by simp [advance_pend_of_masked n hI, hm, hp]
    exact ⟨_, exec_irqOn ((advance_fault n s).trans hf),
      (dispatch_clk_of_no_tick (s := (advance n s).setCpuI true) hpend).1.trans hclk⟩

end Sys2Proof.Machine
end

section
/-! The begin of a measurement (42_ranging.md R155): the machine is quiet throughout, so its end is written out; and
the loop of `rng.measure` on a clock that stands (R159). -/

namespace Sys2Proof.Machine

/-! ### The trigger pulse -/

theorem Quiet.pinWrite {s : State} (h : Quiet s) (p : Byte) (l : Level) : Quiet (pinWrite p l s) :=
  h.congr (pinWrite_frame p l s).cpuI (pinWrite_frame p l s).fault (pinWrite_t0 p l s) (pinWrite_t1 p l s)
    (pinWrite_edge p l s)

theorem Quiet.triggerPulse {s : State} (h : Quiet s) (d : Driver) : Quiet (triggerPulse d s) :=
  (advance_quiet _ ((advance_quiet _ (h.pinWrite _ _)).pinWrite _ _)).pinWrite _ _

theorem getPin_pinWrite_level {p : Byte} {s : State} (h : (getPin s p).dir = .output) (l : Level) :
    (getPin (pinWrite p l s) p).level = l := by
  by_cases hl : (getPin s p).level = l
  · rw [pinWrite_of_level hl, hl]
  · rw [pinWrite_of_change h hl]
    exact congrArg Pin.level (getPin_setPin_same s p _)

/-- A change that `pin_write` makes is recorded. -/
theorem mem_trace_pinWrite {p : Byte} {l : Level} {s : State} (h : (getPin s p).dir = .output)
    (hl : (getPin s p).level ≠ l) : { t := s.t, pin := p, level := l } ∈ (pinWrite p l s).trace := by
  rw [pinWrite_of_change h hl]
  exact List.mem_append_right _ (List.mem_singleton_self _)

theorem SamePin.mem_trace {p : Byte} {s t : State} {e : TraceEntry} (h : SamePin p s t) (hp : e.pin = p)
    (he : e ∈ s.trace) : e ∈ t.trace := by
  have hmem : e ∈ s.trace.filter (·.pin == p) := List.mem_filter.mpr ⟨he, by simp [hp]⟩
  rw [← h.trace] at hmem
  exact (List.mem_filter.mp hmem).1

theorem mem_trace_pinWrite_of_mem {e : TraceEntry} {s : State} (he : e ∈ s.trace) (p : Byte) (l : Level) :
    e ∈ (pinWrite p l s).trace := by
  obtain ⟨-, h⟩ | ⟨-, -, h⟩ := pinWrite_cases p l s
  · rw [h]
    exact he
  · rw [h]
    exact List.mem_append_left _ he

section Pulse
variable {d : Driver} {s : State}

/-- The pulse ends low on an output. -/
theorem triggerPulse_level (h : (getPin s d.trig).dir = .output) :
    (getPin (triggerPulse d s) d.trig).level = .low :=
  getPin_pinWrite_level (((pinWrite_frame _ _ _).trans ((advance_frame _ _).trans ((pinWrite_frame _ _ _).trans
    (advance_frame _ _)))).dir _ |>.trans h) .low

/-- On an output that no attached servo shares, both edges of the pulse are changes, so `TRACE` has them. -/
theorem triggerPulse_trace (h : (getPin s d.trig).dir = .output) (hs : Unserved d.trig s) :
    { t := s.t + settleUs * s.cfg.cycPerUs, pin := d.trig, level := .high } ∈ (triggerPulse d s).trace ∧
    { t := s.t + settleUs * s.cfg.cycPerUs + trigUs * s.cfg.cycPerUs, pin := d.trig, level := .low } ∈
      (triggerPulse d s).trace := by
  have settled (u : State) (n : Nat) (hu : Unserved d.trig u) := (advance_background n u).samePin hu
  unfold triggerPulse
  dsimp only
  generalize hu : pinWrite d.trig .low s = u
  have fu : BackgroundFrame s u := hu ▸ pinWrite_frame _ _ _
  have hlow : (getPin u d.trig).level = .low := hu ▸ getPin_pinWrite_level h .low
  have htu : u.t = s.t := hu ▸ pinWrite_t _ _ _
  generalize hv : advance (settleUs * s.cfg.cycPerUs) u = v
  have fv : BackgroundFrame s v := fu.trans (hv ▸ advance_frame _ _)
  have hkept : (getPin v d.trig).level = .low := hv ▸ (settled u _ (hs.of_frame fu)).level.trans hlow
  have htv : v.t = s.t + settleUs * s.cfg.cycPerUs := by rw [← hv, advance_t, htu]
  have hout : (getPin v d.trig).dir = .output := (fv.dir _).trans h
  have hmem : { t := v.t, pin := d.trig, level := .high } ∈ (pinWrite d.trig .high v).trace :=
    mem_trace_pinWrite hout (by rw [hkept]; decide)
  have hhigh : (getPin (pinWrite d.trig .high v) d.trig).level = .high := getPin_pinWrite_level hout .high
  have fw : BackgroundFrame s (pinWrite d.trig .high v) := fv.trans (pinWrite_frame _ _ _)
  have hsame := settled (pinWrite d.trig .high v) (trigUs * v.cfg.cycPerUs) (hs.of_frame fw)
  generalize hx : advance (trigUs * v.cfg.cycPerUs) (pinWrite d.trig .high v) = x at hsame ⊢
  have fx : BackgroundFrame s x := fw.trans (hx ▸ advance_frame _ _)
  have htx : x.t = s.t + settleUs * s.cfg.cycPerUs + trigUs * s.cfg.cycPerUs := by
    rw [← hx, advance_t, pinWrite_t, htv, fv.cfg]
  rw [← htv, htv, ← htx]
  refine ⟨mem_trace_pinWrite_of_mem (htv ▸ hsame.mem_trace rfl hmem) _ _,
    mem_trace_pinWrite ((fx.dir _).trans h) ?_⟩
  rw [hsame.level, hhigh]
  decide

end Pulse

/-! ### The begin in a quiet state -/

/-- Both timestamps cleared (R155). -/
def withoutStamps (s : State) : State := s.setRng { s.rng with trigTime := none, echoTime := none }

theorem Quiet.withoutStamps {s : State} (h : Quiet s) : Quiet (withoutStamps s) := h.congr rfl rfl rfl rfl rfl

/-- Gone into the loop from the tick of `u`: Triggered, armed for rising edges (R155). -/
def enterTriggered (u : State) : State :=
  (setEdgeMode .rising (u.setRng { u.rng with state := .triggered })).setMeas (.inLoop (nowValue u))

section Enter
variable (u : State)

theorem Quiet.enterTriggered {u : State} (h : Quiet u) : Quiet (enterTriggered u) := by
  have htrig : Quiet (u.setRng { u.rng with state := .triggered }) := h.congr rfl rfl rfl rfl rfl
  exact (htrig.setEdgeMode .rising).congr rfl rfl rfl rfl rfl

@[simp] theorem enterTriggered_meas : (enterTriggered u).meas = .inLoop (nowValue u) := rfl
@[simp] theorem enterTriggered_edge : (enterTriggered u).edge = { mode := .rising, pend := false } := rfl
@[simp] theorem enterTriggered_rng : (enterTriggered u).rng = { u.rng with state := .triggered } := rfl
@[simp] theorem enterTriggered_t : (enterTriggered u).t = u.t := rfl
@[simp] theorem enterTriggered_clk : (enterTriggered u).clk = u.clk := rfl
@[simp] theorem enterTriggered_pins : (enterTriggered u).pins = u.pins := rfl
@[simp] theorem enterTriggered_trace : (enterTriggered u).trace = u.trace := rfl

end Enter

/-- Nothing is waiting at any time in a begin, so its critical sections take no interrupt. -/
theorem beginMeasure_of_quiet {d : Driver} {s : State} (hq : Quiet s) :
    beginMeasure d s = enterTriggered (triggerPulse d (withoutStamps s)) := by
  have hpulse := hq.withoutStamps.triggerPulse d
  have hclear : clearTimestamps s = withoutStamps s := (clearTimestamps_eq s).trans (dispatch_of_quiet hq.withoutStamps)
  rw [beginMeasure, hclear]
  generalize triggerPulse d (withoutStamps s) = u at hpulse
  have htrig : Quiet (u.setRng { u.rng with state := .triggered }) := hpulse.congr rfl rfl rfl rfl rfl
  rw [goTriggered_eq, dispatch_of_quiet htrig, enterLoop_eq, dispatch_of_quiet (htrig.setEdgeMode .rising)]
  rfl

section Begin
variable {d : Driver} {s : State}

theorem beginMeasure_quiet (hq : Quiet s) : Quiet (beginMeasure d s) := by
  rw [beginMeasure_of_quiet hq]
  exact (hq.withoutStamps.triggerPulse d).enterTriggered

theorem beginMeasure_meas (hq : Quiet s) : (beginMeasure d s).meas = .inLoop (nowValue (beginMeasure d s)) := by
  rw [beginMeasure_of_quiet hq, enterTriggered_meas, nowValue, nowValue, enterTriggered_clk]

theorem beginMeasure_edge (hq : Quiet s) : (beginMeasure d s).edge = { mode := .rising, pend := false } := by
  rw [beginMeasure_of_quiet hq, enterTriggered_edge]

theorem beginMeasure_rng (hq : Quiet s) (hs : s.rng.state = .idle) : (beginMeasure d s).rng =
    { s.rng with state := .triggered, trigTime := none, echoTime := none } := by
  have hpulse : (triggerPulse d (withoutStamps s)).rng = (withoutStamps s).rng := triggerPulse_background d _ hs
  rw [beginMeasure_of_quiet hq, enterTriggered_rng, hpulse]
  rfl

theorem beginMeasure_t (hq : Quiet s) :
    (beginMeasure d s).t = s.t + settleUs * s.cfg.cycPerUs + trigUs * s.cfg.cycPerUs := by
  rw [beginMeasure_of_quiet hq, enterTriggered_t, triggerPulse_t]
  rfl

theorem beginMeasure_level (hq : Quiet s) (h : (getPin s d.trig).dir = .output) :
    (getPin (beginMeasure d s) d.trig).level = .low := by
  rw [beginMeasure_of_quiet hq, getPin_congr _ (enterTriggered_pins _)]
  exact triggerPulse_level (s := withoutStamps s) h

theorem beginMeasure_trace (hq : Quiet s) (h : (getPin s d.trig).dir = .output) (hs : Unserved d.trig s) :
    { t := s.t + settleUs * s.cfg.cycPerUs, pin := d.trig, level := .high } ∈ (beginMeasure d s).trace ∧
    { t := s.t + settleUs * s.cfg.cycPerUs + trigUs * s.cfg.cycPerUs, pin := d.trig, level := .low } ∈
      (beginMeasure d s).trace := by
  rw [beginMeasure_of_quiet hq, enterTriggered_trace]
  exact triggerPulse_trace (s := withoutStamps s) h hs

end Begin

/-! ### `rng.begin` -/

theorem exec_rngBegin_of_not_faulted {s : State} (hf : s.fault = none) : exec .rngBegin s = rngBegin s :=
  unlessFaulted_of_none hf rngBegin

theorem exec_rngMeasure_of_not_faulted {s : State} (n : Quad) (hf : s.fault = none) :
    exec (.rngMeasure n) s = measure n.toNat s :=
  unlessFaulted_of_none hf (measure n.toNat)

theorem rngBegin_of_no_driver {s : State} (h : s.rng.cfg = none) : rngBegin s = .refused .noDriver := by
  rw [rngBegin, h]

theorem rngBegin_of_idle {s : State} {d : Driver} (hd : s.rng.cfg = some d) (hs : s.rng.state = .idle) :
    rngBegin s = .next (beginMeasure d (dispatch s)) := by
  have hc : critical (fun s => (s.rng.state, s)) s = (s.rng.state, dispatch s) := rfl
  rw [rngBegin, hd]
  simp only [hc, if_pos hs]

theorem measure_of_begin_refused {n : Nat} {s : State} {r : Refusal} (hn : n ≠ 0) (h : rngBegin s = .refused r) :
    measure n s = .refused r := by
  rw [measure, if_neg hn, h, andThen_refused]

/-- The begin, beside what goes on underneath, with the loop's start at the tick where it ends. -/
theorem rngBegin_frame {d : Driver} (s : State) : BackgroundFrame
    (((s.setRng { s.rng with state := .triggered }).setEdge { mode := .rising, pend := false }).setMeas
      (.inLoop (nowValue (beginMeasure d (dispatch s))))) (beginMeasure d (dispatch s)) := by
  obtain ⟨start, hstart, f⟩ := beginMeasure_frame d (dispatch s)
  obtain rfl : start = nowValue (beginMeasure d (dispatch s)) :=
    Meas.inLoop.inj (hstart.symm.trans (beginMeasure_meas (dispatch_quiet s)))
  have g := dispatch_frame s
  have h : BackgroundFrame
      (((s.setRng { s.rng with state := .triggered }).setEdge { mode := .rising, pend := false }).setMeas
        (.inLoop (nowValue (beginMeasure d (dispatch s)))))
      ((((dispatch s).setRng { (dispatch s).rng with state := .triggered }).setEdge
        { mode := .rising, pend := false }).setMeas (.inLoop (nowValue (beginMeasure d (dispatch s))))) :=
    { g with rngState := rfl, mode := rfl, meas := rfl, dir := g.dir }
  exact h.trans f

/-- Settles O32: the begin runs in the quiet state that its first critical section leaves. -/
theorem rngBeginTriggers : Obligations.RngBeginTriggers := by
  unfold Obligations.RngBeginTriggers
  refine ⟨fun s hf hd => ⟨?noDriver, fun n hn => ?noMeasure⟩, fun s d hf hd hs _ => ?begins⟩
  case noDriver => rw [exec_rngBegin_of_not_faulted hf, rngBegin_of_no_driver hd]
  case noMeasure =>
    have hn' : n.toNat ≠ 0 := fun h => hn (BitVec.eq_of_toNat_eq h)
    rw [exec_rngMeasure_of_not_faulted n hf, measure_of_begin_refused hn' (rngBegin_of_no_driver hd)]
  case begins =>
    have f := dispatch_frame s
    have hq := dispatch_quiet s
    have hrng := beginMeasure_rng (d := d) hq (f.rngState.trans hs)
    have ht := beginMeasure_t (d := d) hq
    have htrace := beginMeasure_trace (d := d) hq
    rw [f.cfg, dispatch_t] at ht htrace
    refine ⟨_, (exec_rngBegin_of_not_faulted hf).trans (rngBegin_of_idle hd hs), rngBegin_frame s,
      by rw [hrng], by rw [hrng],
      by rw [beginMeasure_edge hq], ht, fun h => beginMeasure_level hq ((f.dir _).trans h), fun h hslots => ?_⟩
    exact htrace ((f.dir _).trans h) (Unserved.of_frame (.inl hslots) f)

/-! ### The loop of `rng.measure` -/

/-- In the loop that began at tick `start`, with no interrupt and no edge waiting and no edge captured. -/
structure Waiting (start : Quad) (s : State) : Prop where
  quiet : Quiet s
  loop : s.meas = .inLoop start
  uncaptured : s.rng.trigTime = none
  noEdge : s.edge.pend = false

section Loop
variable {start : Quad} {s : State} {k n : Nat}

theorem Waiting.setMeas_quiet (w : Waiting start s) (m : Meas) : Quiet (s.setMeas m) :=
  w.quiet.congr rfl rfl rfl rfl rfl

/-- A pass before the timeout changes nothing. -/
theorem Waiting.pollPass (w : Waiting start s) (ht : (nowValue s - start).toNat < driverTimeout s) :
    pollPass start s = s := by
  rw [pollPass_of_no_timeout w.quiet ht, rearm_of_not_due (by simp [w.uncaptured]), if_neg (by simp [w.uncaptured])]

theorem Waiting.rngPoll (w : Waiting start s) (ht : (nowValue s - start).toNat < driverTimeout s) :
    rngPoll s = .next s := by
  rw [rngPoll_of_loop w.loop, w.pollPass ht]

/-- Past the timeout the loop ends the measurement. -/
theorem measureLoop_of_timeout (w : Waiting start s) (ht : driverTimeout s ≤ (nowValue s - start).toNat) :
    measureLoop (k + 1) n s = .next (endMeasure (s.setMeas .exiting)) := by
  rw [measureLoop, rngPoll_of_loop w.loop, pollPass_of_timeout w.quiet ht]
  simp only [dispatch_of_quiet (w.setMeas_quiet .exiting), State.setMeas_meas, if_true]
  rfl

/-- Before the timeout the loop hangs on a clock that stands. -/
theorem measureLoop_of_stalled (w : Waiting start s) (ht : (nowValue s - start).toNat < driverTimeout s)
    (hc : clockStalled s = true) : measureLoop (k + 1) n s = .fault .hang := by
  rw [measureLoop, w.rngPoll ht]
  simp [dispatch_of_quiet w.quiet, w.loop, hc]

/-- Before the timeout the loop goes round on a clock that runs. -/
theorem measureLoop_of_running (w : Waiting start s) (ht : (nowValue s - start).toNat < driverTimeout s)
    (hc : clockStalled s = false) : measureLoop (k + 1) n s = measureLoop k n (advance n s) := by
  rw [measureLoop, w.rngPoll ht]
  simp [dispatch_of_quiet w.quiet, w.loop, hc]

end Loop

theorem beginMeasure_waiting {d : Driver} {s : State} (hq : Quiet s) (hs : s.rng.state = .idle) :
    Waiting (nowValue (beginMeasure d s)) (beginMeasure d s) where
  quiet := beginMeasure_quiet hq
  loop := beginMeasure_meas hq
  uncaptured := by rw [beginMeasure_rng hq hs]
  noEdge := by rw [beginMeasure_edge hq]

/-- `rng.measure` from Idle is its begin and the loop. -/
theorem measure_of_idle {n : Nat} {s : State} {d : Driver} (hn : n ≠ 0) (hf : s.fault = none)
    (hd : s.rng.cfg = some d) (hs : s.rng.state = .idle) :
    measure n s = measureLoop measureFuel n (beginMeasure d (dispatch s)) := by
  have hfault : (beginMeasure d (dispatch s)).fault = none := (rngBegin_frame s).fault.trans hf
  rw [measure, if_neg hn, rngBegin_of_idle hd hs, andThen_next', if_neg (by simp [hfault]),
    dispatch_of_quiet (beginMeasure_quiet (dispatch_quiet s))]

/-- The timeout is that of the driver, throughout the measurement. -/
theorem driverTimeout_beginMeasure {d : Driver} {s : State} (hd : s.rng.cfg = some d) :
    driverTimeout (beginMeasure d (dispatch s)) = s.cfg.timeoutTicks d.temp.toInt := by
  have f := rngBegin_frame (d := d) s
  rw [driverTimeout_of_driver (f.driver.trans hd), f.cfg]
  rfl

theorem measureFuel_pos : 0 < measureFuel := Nat.two_pow_pos 60

/-- Settles O38: no tick passed since the begin, no edge can come, and the clock stands. -/
theorem rngMeasureHangsOnStoppedClock : Obligations.RngMeasureHangsOnStoppedClock := by
  unfold Obligations.RngMeasureHangsOnStoppedClock
  refine fun s n d hf => ⟨?zero, fun _ hd hs _ hn htime hstop => ?hangs⟩
  case zero =>
    rw [exec_rngMeasure_of_not_faulted 0 hf]
    exact if_pos rfl
  case hangs =>
    have f := rngBegin_frame (d := d) s
    have hn' : n.toNat ≠ 0 := fun h => hn (BitVec.eq_of_toNat_eq h)
    have w := beginMeasure_waiting (d := d) (dispatch_quiet s) ((dispatch_frame s).rngState.trans hs)
    have hstalled : clockStalled (beginMeasure d (dispatch s)) = true := by
      have hkept : clockStalled (beginMeasure d (dispatch s)) = clockStalled s := by
        rw [clockStalled, f.cpuI, f.t0run, f.t0ie]
        rfl
      rw [hkept]
      obtain h | h | h := hstop <;> simp [clockStalled, h]
    obtain ⟨k, hk⟩ := Nat.exists_eq_succ_of_ne_zero measureFuel_pos.ne'
    rw [exec_rngMeasure_of_not_faulted n hf, measure_of_idle hn' hf hd hs, hk]
    exact measureLoop_of_stalled w (by rw [driverTimeout_beginMeasure hd, BitVec.sub_self]; exact htime) hstalled

end Sys2Proof.Machine
end

section
/-! `rng.measure` on a running clock (42_ranging.md R159, R164): its loop waits, pass by pass, until the ticks reach
the timeout, which they do within the fuel. -/

namespace Sys2Proof.Machine

/-! ### Matches of T0 over a stretch -/

theorem t0Matches_add (a b : Nat) (s : State) : t0Matches (a + b) s = t0Matches a s + t0Matches b (advance a s) := by
  induction a generalizing s with
  | zero => rw [Nat.zero_add, t0Matches, Nat.zero_add, advance]
  | succ a ih => rw [Nat.add_right_comm, t0Matches, t0Matches, ih, advance, Nat.add_assoc]

/-- A match takes a cycle. -/
theorem t0Matches_le (n : Nat) (s : State) : t0Matches n s ≤ n := by
  induction n generalizing s with
  | zero => exact Nat.le_refl 0
  | succ n ih =>
    have h := ih (cycle s)
    rw [t0Matches]
    split <;> omega

theorem prescale_cycles_le (p : Prescale) : p.cycles ≤ 1024 := by cases p <;> decide

/-- A running T0 matches at least once in as many cycles as its longest period (R181, R182). -/
theorem le_t0Matches {m n : Nat} {s : State} (hrun : s.t0.run = true) (hle : s.t0.cnt.toNat ≤ s.t0.cmp.toNat)
    (hn : m * 256 * 1024 ≤ n) : m ≤ t0Matches n s := by
  have hp := prescale_cycles_pos s.t0.prescale
  have hcounts : m * 256 ≤ countsIn s.t0.run s.t0.prescale s.t n := by
    have hsum : s.t / s.t0.prescale.cycles + n / s.t0.prescale.cycles ≤ (s.t + n) / s.t0.prescale.cycles :=
      Nat.div_add_div_le_add_div
    have hdiv : m * 256 ≤ n / s.t0.prescale.cycles := by
      rw [Nat.le_div_iff_mul_le hp]
      exact (Nat.mul_le_mul_left (m * 256) (prescale_cycles_le s.t0.prescale)).trans hn
    rw [countsIn, if_pos hrun]
    exact hdiv.trans (Nat.le_sub_of_add_le' hsum)
  have hcmp : s.t0.cmp.toNat + 1 ≤ 256 := s.t0.cmp.isLt
  rw [t0Matches_eq n hle, Nat.le_div_iff_mul_le (Nat.succ_pos _)]
  exact (Nat.mul_le_mul_left m hcmp).trans (Nat.le_add_left_of_le hcounts)

/-! ### Waiting over time -/

/-- With no edge waiting an interrupt leaves the ranging unit and the edge unit alone. -/
theorem takeInterrupt_ranging {src : Source} {s : State} (hr : requesting s src = true) (he : s.edge.pend = false) :
    (takeInterrupt src s).rng = s.rng ∧ (takeInterrupt src s).edge = s.edge := by
  cases src with
  | tick =>
    show (tickBody (enter .tick s)).rng = s.rng ∧ (tickBody (enter .tick s)).edge = s.edge
    rw [tickBody_eq]
    exact ⟨rfl, rfl⟩
  | servo =>
    obtain ⟨-, -, -, -, hrng, hedge⟩ := isrBody_keeps (enter .servo s)
    exact ⟨hrng, hedge⟩
  | edge => simp [requesting, he] at hr

/-- No edge comes while time passes. -/
theorem advance_ranging (n : Nat) {s : State} (he : s.edge.pend = false) :
    (advance n s).rng = s.rng ∧ (advance n s).edge = s.edge := by
  refine advance_keeps (P := fun u => u.rng = s.rng ∧ u.edge = s.edge) (fun src u _ hr hu => ?_) (fun _ h => h)
    (fun u _ h => ?_) (fun u _ h => ?_) n s ⟨rfl, rfl⟩
  · obtain ⟨hrng, hedge⟩ := takeInterrupt_ranging hr (by rw [hu.2, he])
    exact ⟨hrng.trans hu.1, hedge.trans hu.2⟩
  · rw [countT0_eq]
    exact h
  · rw [countT1_eq]
    exact h

theorem Waiting.advance {start : Quad} {s : State} (w : Waiting start s) (n : Nat) :
    Waiting start (advance n s) := by
  obtain ⟨hrng, hedge⟩ := advance_ranging n w.noEdge
  exact ⟨advance_quiet n w.quiet, (advance_frame n s).meas.trans w.loop, by rw [hrng, w.uncaptured],
    by rw [hedge, w.noEdge]⟩

/-- The timeout reads the driver and the configuration. -/
theorem BackgroundFrame.driverTimeout {s t : State} (f : BackgroundFrame s t) : driverTimeout t = driverTimeout s := by
  simp only [Machine.driverTimeout, f.driver, f.cfg]

/-- A loop that waits through `m` passes goes on from the end of the last. -/
theorem measureLoop_of_waiting {start : Quad} {n : Nat} {b : State} (w : Waiting start b)
    (hc : clockStalled b = false) (k m : Nat)
    (ht : ∀ i < m, (nowValue (advance (i * n) b) - start).toNat < driverTimeout b) :
    measureLoop (k + m) n b = measureLoop k n (advance (m * n) b) := by
  induction m generalizing k with
  | zero => rw [Nat.zero_mul]; rfl
  | succ m ih =>
    have f := advance_frame (m * n) b
    have hrunning : clockStalled (advance (m * n) b) = false := by
      rw [clockStalled, f.cpuI, f.t0run, f.t0ie]
      exact hc
    have hlast := measureLoop_of_running (n := n) (k := k) (w.advance (m * n))
      (by rw [f.driverTimeout]; exact ht m (Nat.lt_succ_self m)) hrunning
    have hfuel : k + (m + 1) = k + 1 + m := by omega
    rw [hfuel, ih (k + 1) fun i hi => ht i (Nat.lt_succ_of_lt hi), hlast, Nat.succ_mul, advance_add]

/-! ### The end of the wait -/

/-- In a loop on a running clock the ticks since its start are the matches of T0, modulo 2^32. -/
theorem elapsed_advance {b : State} (hp : PartInv b) (hI : b.cpuI = true) (hf : b.fault = none)
    (hie : b.t0.ie = true) (hpend : b.t0.pend = false) (m : Nat) :
    (nowValue (advance m b) - nowValue b).toNat = t0Matches m b % 2 ^ 32 := by
  rw [nowValue_advance m hp hI hf hie hpend, add_sub_cancel_left, BitVec.toNat_ofNat]

/-- The first of the states `n` cycles apart in which as many matches as `timeout` have passed: not before, not by
more than one pass, and within the fuel. -/
theorem exists_first_timeout {b : State} {n timeout : Nat} (hrun : b.t0.run = true)
    (hle : b.t0.cnt.toNat ≤ b.t0.cmp.toNat) (hn : n ≠ 0) (hbound : timeout + n ≤ 2 ^ 32) :
    ∃ m, (∀ i < m, t0Matches (i * n) b < timeout) ∧ timeout ≤ t0Matches (m * n) b ∧
      t0Matches (m * n) b < 2 ^ 32 ∧ m < measureFuel := by
  have hreach : timeout ≤ t0Matches (timeout * 256 * 1024 * n) b :=
    le_t0Matches hrun hle (Nat.le_mul_of_pos_right _ (Nat.pos_of_ne_zero hn))
  have hex : ∃ m, timeout ≤ t0Matches (m * n) b := ⟨_, hreach⟩
  refine ⟨Nat.find hex, fun i hi => Nat.lt_of_not_le (Nat.find_min hex hi), Nat.find_spec hex, ?lt, ?fuel⟩
  case lt =>
    cases hm : Nat.find hex with
    | zero => rw [Nat.zero_mul]; exact Nat.two_pow_pos 32
    | succ m =>
      have hbefore : ¬ timeout ≤ t0Matches (m * n) b := Nat.find_min hex (by omega)
      have hpass := t0Matches_le n (advance (m * n) b)
      rw [Nat.succ_mul, t0Matches_add]
      omega
  case fuel =>
    have hmin : Nat.find hex ≤ timeout * 256 * 1024 := Nat.find_min' hex hreach
    have hfuel : measureFuel = 1152921504606846976 := by rfl
    omega

/-- The loop on a running clock waits until the first pass past the timeout, and ends the measurement there. -/
theorem measureLoop_of_running_clock {b : State} {n : Nat} (w : Waiting (nowValue b) b) (hp : PartInv b)
    (hle : b.t0.cnt.toNat ≤ b.t0.cmp.toNat) (hf : b.fault = none) (hI : b.cpuI = true) (hrun : b.t0.run = true)
    (hie : b.t0.ie = true) (hn : n ≠ 0) (hbound : driverTimeout b + n ≤ 2 ^ 32) :
    ∃ m, measureLoop measureFuel n b = .next (endMeasure ((advance m b).setMeas .exiting)) := by
  have hrunning : clockStalled b = false := by simp [clockStalled, hI, hrun, hie]
  have helapsed := elapsed_advance hp hI hf hie (w.quiet.no_tick hI hf hie)
  obtain ⟨m, hbefore, hreached, hlt, hfuel⟩ := exists_first_timeout hrun hle hn hbound
  obtain ⟨k, hk⟩ : ∃ k, measureFuel = k + 1 + m := ⟨measureFuel - 1 - m, by omega⟩
  have hwait := measureLoop_of_waiting (n := n) w hrunning (k + 1) m fun i hi => by
    have h := hbefore i hi
    rw [helapsed, Nat.mod_eq_of_lt (by omega)]
    exact h
  have hend := measureLoop_of_timeout (k := k) (n := n) (w.advance (m * n)) (by
    rw [helapsed, (advance_frame (m * n) b).driverTimeout, Nat.mod_eq_of_lt hlt]
    exact hreached)
  exact ⟨m * n, by rw [hk, hwait, hend]⟩

theorem BackgroundFrame.setMeas {s t : State} (f : BackgroundFrame s t) (m : Meas) :
    BackgroundFrame (s.setMeas m) (t.setMeas m) :=
  { f with meas := rfl, dir := f.dir }

/-- What a measurement that found no edge leaves, beside what goes on underneath: the state before it. -/
theorem endMeasure_frame_of_uncaptured {s x : State} {m : Meas} (hs : s.rng.state = .idle) (he : s.edge.mode = .off)
    (hm : s.meas = .noMeas) (htrig : x.rng.trigTime = none)
    (f : BackgroundFrame (((s.setRng { s.rng with state := .triggered }).setEdge
      { mode := .rising, pend := false }).setMeas m) x) :
    BackgroundFrame (s.setRes (.err 3)) (endMeasure x) := by
  have hres : rangingResult x.rng.trigTime x.rng.echoTime = .err 3 := by
    rw [htrig]
    rfl
  have g := endMeasure_frame x
  rw [hres] at g
  have h : BackgroundFrame (s.setRes (.err 3))
      ((((setEdgeMode .off x).setRng { x.rng with state := .idle }).setMeas .noMeas).setRes (.err 3)) :=
    { f with res := rfl, rngState := hs.symm, mode := he.symm, meas := hm.symm, dir := f.dir }
  exact h.trans g

/-- The Clock's invariant holds when the loop begins. -/
theorem ClockInv.beginMeasure {s : State} {d : Driver} (h : ClockInv s) (hc : s.cfg.wellFormed = true)
    (hf : s.fault = none) (hd : s.rng.cfg = some d) (hs : s.rng.state = .idle) :
    ClockInv (beginMeasure d (dispatch s)) := by
  have e : exec .rngBegin s = .next (Machine.beginMeasure d (Machine.dispatch s)) :=
    (exec_rngBegin_of_not_faulted hf).trans (rngBegin_of_idle hd hs)
  exact ((exec_moves (by decide) e).keeps (P := fun u => u.cfg.wellFormed = true ∧ ClockInv u)
    (fun _ _ m hu => ⟨m.cfg ▸ hu.1, hu.2.underneath m⟩) (fun _ _ m hu => ⟨m.cfg ▸ hu.1, hu.2.write hu.1 m⟩)
    ⟨hc, h⟩).2

theorem foldThreshold_le {c : Config} (hc : c.wellFormed = true) : c.foldThreshold ≤ 254 := by
  simp only [Config.wellFormed, Bool.and_eq_true, decide_eq_true_eq] at hc
  omega

/-- Settles O37: the Clock's invariant lets the loop run to its timeout, and no edge was captured. -/
theorem rngMeasureTimesOut : Obligations.RngMeasureTimesOut := by
  unfold Obligations.RngMeasureTimesOut
  intro s n d hc hq hf hclk hstarted hI hd hs he hm hn hbound
  have hn' : n.toNat ≠ 0 := fun h => hn (BitVec.eq_of_toNat_eq h)
  have hexec : exec (.rngMeasure n) s = measureLoop measureFuel n.toNat (beginMeasure d (dispatch s)) :=
    (exec_rngMeasure_of_not_faulted n hf).trans (measure_of_idle hn' hf hd hs)
  have f := rngBegin_frame (d := d) s
  have w := beginMeasure_waiting (d := d) (dispatch_quiet s) ((dispatch_frame s).rngState.trans hs)
  have hclk' := hclk.beginMeasure hc hf hd hs
  have htime := driverTimeout_beginMeasure hd
  rw [hexec]
  generalize beginMeasure d (dispatch s) = b at f w hclk' htime ⊢
  have hstarted' : b.clk.started = true := f.started.trans hstarted
  obtain ⟨m, hloop⟩ := measureLoop_of_running_clock w ⟨foldThreshold_le (f.cfg ▸ hc), hclk'.part_le⟩ hclk'.cnt_le
    (f.fault.trans hf) (f.cpuI.trans hI) (hclk'.run_iff.trans hstarted') (hclk'.ie_iff.trans hstarted') hn'
    (by rw [htime]; exact hbound)
  have hframe := endMeasure_frame_of_uncaptured hs he hm (x := (advance m b).setMeas .exiting)
    (w.advance m).uncaptured ((f.trans (advance_frame m b)).setMeas .exiting)
  exact ⟨_, hloop, hframe⟩

end Sys2Proof.Machine
end
